-- ==== Sys2Proof/Word.lean ====
section
/-!
DEFINITION. The word types of the T218 and the plainest operations on them: fixed tables of like things
(`Vector`), updated at one place (`vupd`) or everywhere (`vmap`). Nothing here depends on a rule that a test
could show wrong.
-/

namespace Sys2Proof

/-- One byte of board memory or one character of a management link. -/
abbrev Byte := BitVec 8

/-- A value of the deadline clock: a 32-bit count of ticks (R70). -/
abbrev Clock := BitVec 32

/-- A 36-bit channel byte address (section 1.4); a line address is a multiple of 64. -/
abbrev LineAddr := BitVec 36

/-- The 64 bytes of one line, byte 0 of the line first (R4, R5). -/
abbrev LineData := Vector Byte 64

/-- The byte mask of a write burst: bit b says that byte b of the line is enabled (R4). -/
abbrev ByteMask := BitVec 64

/-- A set of line indices 0..7 of a slot. -/
abbrev LineSet := BitVec 8

/-- A row number 0..131,071 of a bank (R2). -/
abbrev RowNumber := BitVec 17

/-- Stream n of the manual (1..16) is the index n − 1. -/
abbrev StreamIx := Fin 16

/-- Pair n of the manual (1..8) is the index n − 1. -/
abbrev PairIx := Fin 8

/-- Incident source n of the manual (1..27) is the index n − 1. -/
abbrev SourceIx := Fin 27

/-- The place `i` of a table, changed by `f`; every other place is kept. -/
def vupd {α : Type} {n : Nat} (v : Vector α n) (i : Fin n) (f : α → α) : Vector α n :=
  v.set i.1 (f (v[i.1]'i.2)) i.2

/-- Every place of a table, changed by `f`. -/
def vmap {α β : Type} {n : Nat} (f : α → β) (v : Vector α n) : Vector β n :=
  ⟨⟨v.toList.map f⟩, by simp⟩

/-- The 16 stream indices in order. -/
def allStreams : List StreamIx :=
  [0, 1, 2, 3, 4, 5, 6, 7, 8, 9, 10, 11, 12, 13, 14, 15]

/-- The 8 pair indices in order. -/
def allPairs : List PairIx := [0, 1, 2, 3, 4, 5, 6, 7]

/-- The 27 source indices in order. -/
def allSources : List SourceIx :=
  [0, 1, 2, 3, 4, 5, 6, 7, 8, 9, 10, 11, 12, 13, 14, 15, 16, 17, 18, 19, 20, 21, 22, 23, 24, 25, 26]

end Sys2Proof
end

