-- ==== Sys2Proof/Config.lean ====
section
/-!
DEFINITION. What is fixed for the part: the sizes of its tables, the gap limit of its links, and the two values
that the manual leaves open (constants without a body: nothing can be proved of their values).
-/

namespace Sys2Proof.Config

/-- Most open assemblies of one stream (R22). -/
def assembliesPerStream : Nat := 4

/-- Most records in the Commit Queue (R36). -/
def commitQueueSize : Nat := 4

/-- Most entries in the Pairing Table's pool (R48). -/
def entryPoolSize : Nat := 2048

/-- Most entries in the echo list (R108). -/
def echoListSize : Nat := 64

/-- Most characters in a link's receive buffer (R157). -/
def receiveBufferSize : Nat := 2

/-- The elapsed ticks at which a gap has exceeded 2 ms (R161). -/
def gapTicks : Nat := 21

/-- The largest latency sample (R76). -/
def sampleCeiling : Nat := 1048575

/-- DESIGN CHOICE (notes/assumptions/4): what READ_PAIR reports as the time since the window's start while the
window is HELD. R101 has the field reported and R103 gives a HELD window no start until the discontinuity ends,
so no rule states a value. A free value of the pair number and the deadline clock. -/
opaque heldWindowElapsed : Nat → Clock → BitVec 32

/-- DESIGN CHOICE (notes/assumptions/30): which of several pairs pending together is promoted first when the hold-off
limit passes. R133 says that the first is not the part's choice. A free value of the limit count and the deadline
clock. -/
opaque firstPromoted : Nat → Clock → Nat

end Sys2Proof.Config
end

