-- ==== Sys2Proof/Syntax.lean ====
section
/-!
DEFINITION. The commands of the T218: one constructor of `Instr` for each row of spec/opcode_table.json, with the
row's operands. An operand that arrives on a management link has the width that Table 11.7 gives it on the wire,
so that every value a manager can send is a value of the type and the owner's range checks and clamps are the
machine's. Stream n, pair n and source n stand at the index n − 1 in the operands of events inside the part.
-/

namespace Sys2Proof

/-- The two chassis managers; a manager's link, target and attention line carry its name. -/
inductive Manager where
  | A
  | B
deriving DecidableEq, Repr

/-- The straps of Table 1.4 that are read at power-on reset: STN0–STN5, BAUD and AMAP1, AMAP0 (AMAP0 is bit 0). -/
structure Straps where
  stn : BitVec 6
  baud : Bool
  amap : BitVec 2
deriving DecidableEq, Repr

/-- One bank of the channel: rank, bank group and bank within its group (R2, R3). -/
structure BankAddr where
  rank : BitVec 2
  group : BitVec 2
  bank : BitVec 2
deriving DecidableEq, Repr

/-- Whether a column command reads or writes (R2). -/
inductive ColumnOp where
  | read
  | write
deriving DecidableEq, Repr

/-- How much of the line a burst transfers (R4, R5): all 64 bytes, or one half of them. The manual does not say
which half a chopped burst transfers; the command carries it. -/
inductive BurstLength where
  | full
  | choppedLow
  | choppedHigh
deriving DecidableEq, Repr

/-- The ten bits of a link character between its start bit and its end: data, address flag, parity and stop
(R171, Table 11.2). -/
structure LinkChar where
  data : Byte
  flag : Bool
  parity : Bool
  stop : Bool
deriving DecidableEq, Repr

/-- The operands of SET_STREAM (Table 11.7). -/
structure SetStreamOps where
  stream : Byte
  role : Byte
  base : BitVec 40
  slotSize : Byte
  slotCount : BitVec 16
  marker : BitVec 16
  commitMode : Byte
  lapPolarity : Byte
  reorderSpan : Byte
  silenceLimit : BitVec 32
  assemblyLimit : BitVec 32
  minInterval : BitVec 32
  maxInterval : BitVec 32
  missLimit : Byte
  fence : Byte
deriving DecidableEq, Repr

/-- The operands of SET_PAIR (Table 11.7). -/
structure SetPairOps where
  pair : Byte
  requestStream : Byte
  completionStream : Byte
  quota : BitVec 16
  holdLimit : Byte
  gm : Byte
  gd : Byte
  k : Byte
  tfloor : BitVec 32
  tceil : BitVec 32
  armingCount : Byte
  window : BitVec 32
  toleranceShift : Byte
  confirmCount : Byte
  quiesceLimit : BitVec 32
  expectFetch : Byte
  echoDeadline : BitVec 32
  fence : Byte
deriving DecidableEq, Repr

/-- The operands of SET_SOURCE (Table 11.7). -/
structure SetSourceOps where
  source : Byte
  priority : Byte
  enable : Byte
  target : Byte
  trigger : Byte
deriving DecidableEq, Repr

/-- The operands of SET_VERDICT (Table 11.7). -/
structure SetVerdictOps where
  channelLossLimit : BitVec 32
  fenceOnLoss : Byte
  alarmDrive : Byte
  holdoffFactor : Byte
  releaseSettle : BitVec 32
  holdoffLimit : BitVec 32
deriving DecidableEq, Repr

/-- The commands of the part, one constructor for each row of spec/opcode_table.json, in the table's order. -/
inductive Instr where
  /-- POWER_ON_RESET: PORST_N asserted, with the levels of the straps. -/
  | powerOnReset (straps : Straps)
  /-- TICK_BOUNDARY: one tick ends; `channelLive` says that the channel clock toggled during it (R10). -/
  | tickBoundary (channelLive : Bool)
  /-- ROW_ACTIVATE: an activate command seen on the channel. -/
  | rowActivate (bank : BankAddr) (row : RowNumber)
  /-- BANK_PRECHARGE: a precharge of one bank. -/
  | bankPrecharge (bank : BankAddr)
  /-- RANK_PRECHARGE: a precharge of all banks of a rank. -/
  | rankPrecharge (rank : BitVec 2)
  /-- COLUMN_COMMAND: a read or write command with its starting column. -/
  | columnCommand (bank : BankAddr) (column : BitVec 10) (op : ColumnOp) (length : BurstLength)
      (autoPrecharge : Bool)
  /-- WRITE_DATA_COMPLETE: the data of the resolved write at place `which` (oldest first) of those in flight completes.
  `dataMask` marks the bytes that the data mask did not suppress, `duringReset` says that part of the data was
  captured while BRST_N was judged asserted (R12). -/
  | writeDataComplete (which : Nat) (data : LineData) (dataMask : ByteMask) (duringReset : Bool)
  /-- READ_DATA_COMPLETE: the data of the resolved read at place `which` of those in flight returns. -/
  | readDataComplete (which : Nat) (data : LineData) (duringReset : Bool)
  /-- COR_TAKE_RECORD: the COR takes the head of the Commit Queue. -/
  | corTakeRecord
  /-- ASSEMBLY_ABANDON: the assembly of one slot of one stream is judged against the assembly limit. -/
  | assemblyAbandon (stream : StreamIx) (slot : Nat)
  /-- SILENCE: one stream is judged against its silence limit. -/
  | silence (stream : StreamIx)
  /-- ENTRY_EXPIRY: the head of one pair's open list is judged against T. -/
  | entryExpiry (pair : PairIx)
  /-- ENTRY_LOSS: the head of one pair's late list is judged against T. -/
  | entryLoss (pair : PairIx)
  /-- WINDOW_END: one pair's running window is judged against W. -/
  | windowEnd (pair : PairIx)
  /-- QUIESCE_OVERRUN: one pair's quiesce timer is judged against the quiesce limit. -/
  | quiesceOverrun (pair : PairIx)
  /-- PULSE_MISSED: one stream's pulse interval timer is judged against the max interval. -/
  | pulseMissed (stream : StreamIx)
  /-- ECHO_OVERDUE: the first overdue WATCHING entry in list order is judged (R115). -/
  | echoOverdue
  /-- PROBE_GRANT: PGNT is seen asserted. -/
  | probeGrant
  /-- PROBE_DATA_RETURN: data of a probe read returns; `abandoned` says that it belongs to a read abandoned
  earlier (R15). -/
  | probeDataReturn (data : LineData) (abandoned : Bool)
  /-- PROBE_GRANT_RELEASED: PGNT is seen low. -/
  | probeGrantReleased
  /-- GRANT_WAIT_EXPIRY: the wait of the line in hand is judged against the grant wait limit. -/
  | grantWaitExpiry
  /-- CLOCK_STOP: the tick just ended is judged dead in RUNNING. -/
  | clockStop
  /-- CHANNEL_LOSS: the absence count is compared with the channel-loss limit. -/
  | channelLoss
  /-- CLOCK_RESUME: the tick just ended is judged live in STOPPED. -/
  | clockResume
  /-- RETURN_AFTER_LOSS: the tick just ended is judged live in LOST. -/
  | returnAfterLoss
  /-- BOARD_RESET_ASSERTED: BRST_N is judged low at a tick boundary. -/
  | boardResetAsserted
  /-- BOARD_RESET_RELEASED: BRST_N is judged high at a tick boundary. -/
  | boardResetReleased
  /-- CALM_N_JUDGEMENT: CALM_N is judged at a tick boundary; `lineHigh` says that no other monitor drives the line. -/
  | calmNJudgement (lineHigh : Bool)
  /-- HOLDOFF_RELEASE: the high-run time is judged against the release settle. -/
  | holdoffRelease
  /-- HOLDOFF_LIMIT: the hold-off is judged against the hold-off limit. -/
  | holdoffLimit
  /-- ADDRESS_CHARACTER: an address character completes on a link. -/
  | addressCharacter (link : Manager) (char : LinkChar)
  /-- DATA_CHARACTER: a data character, or a damaged character, completes on a link. -/
  | dataCharacter (link : Manager) (char : LinkChar)
  /-- FRAME_GAP_TIMEOUT: the gap of a link is judged at a tick boundary. -/
  | frameGapTimeout (link : Manager)
  /-- REPLY_COMPLETE: the CHECK of a link's reply has been sent. -/
  | replyComplete (link : Manager)
  /-- READ_SUMMARY, taken from a link. -/
  | readSummary (link : Manager)
  /-- SET_STREAM, taken from a link. -/
  | setStream (link : Manager) (ops : SetStreamOps)
  /-- READ_STREAM, taken from a link. -/
  | readStream (link : Manager) (stream : Byte)
  /-- ENABLE_STREAM, taken from a link. -/
  | enableStream (link : Manager) (stream : Byte)
  /-- DISABLE_STREAM, taken from a link. -/
  | disableStream (link : Manager) (stream : Byte)
  /-- SET_PAIR, taken from a link. -/
  | setPair (link : Manager) (ops : SetPairOps)
  /-- READ_PAIR, taken from a link. -/
  | readPair (link : Manager) (pair : Byte)
  /-- ENABLE_PAIR, taken from a link. -/
  | enablePair (link : Manager) (pair : Byte)
  /-- RETIRE_PAIR, taken from a link. -/
  | retirePair (link : Manager) (pair : Byte)
  /-- CLEAR_PAIR, taken from a link. -/
  | clearPair (link : Manager) (pair : Byte)
  /-- READ_ESTIMATE, taken from a link. -/
  | readEstimate (link : Manager) (pair : Byte)
  /-- SET_SOURCE, taken from a link. -/
  | setSource (link : Manager) (ops : SetSourceOps)
  /-- READ_SOURCE, taken from a link. -/
  | readSource (link : Manager) (source : Byte)
  /-- SET_THRESHOLD, taken from a link. -/
  | setThreshold (link : Manager) (target : Byte) (threshold : Byte)
  /-- CLAIM, taken from a link. -/
  | claim (link : Manager)
  /-- ACKNOWLEDGE, taken from a link. -/
  | acknowledge (link : Manager) (source : Byte)
  /-- SET_VERDICT, taken from a link. -/
  | setVerdict (link : Manager) (ops : SetVerdictOps)
  /-- READ_VERDICT, taken from a link. -/
  | readVerdict (link : Manager)
  /-- CLEAR_BOARD, taken from a link. -/
  | clearBoard (link : Manager)
  /-- SET_PROBE, taken from a link. -/
  | setProbe (link : Manager) (mode : Byte) (waitLimit : BitVec 32)
  /-- PROBE_LINE, taken from a link. -/
  | probeLine (link : Manager) (address : BitVec 40)
  /-- READ_PROBE, taken from a link. -/
  | readProbe (link : Manager)
  /-- SET_TIME, taken from a link. -/
  | setTime (link : Manager) (seconds : BitVec 32) (tick : BitVec 16)
  /-- READ_TIME, taken from a link. -/
  | readTime (link : Manager)
  /-- RESET_PART, taken from a link. -/
  | resetPart (link : Manager)
  /-- ABANDONED_REPLY_STOP: the character of an abandoned reply reaches its stop bit. -/
  | abandonedReplyStop (link : Manager)
deriving DecidableEq, Repr

end Sys2Proof
end

