-- ==== Sys2Proof/Decode.lean ====
section
/-!
DEFINITION. Reading bits. The rows of spec/opcode_table.json give no bits, so no word spells a command
(`decodeTableWord`). What the part itself decodes are the characters of a management link (R171) and the command
frames they make up (R163, R172, R173, R174): the character's classification, the coding of numbers, the operand
layouts of Table 11.7 and the command codes of Table 11.5, each with the encoder that goes the other way.
-/

namespace Sys2Proof

/-- The command that a word of the opcode table spells: no row of the table gives bits, so none. -/
def decodeTableWord (_nbits _w : Nat) : Option Instr := none

/-! ### Numbers (R172) -/

/-- The low `n` bytes of a number, least significant first (R172). -/
def leBytes : Nat → Nat → List Byte
  | 0, _ => []
  | n + 1, v => BitVec.ofNat 8 v :: leBytes n (v / 256)

/-- The number that bytes spell, least significant first (R172). -/
def leNat : List Byte → Nat
  | [] => 0
  | b :: bs => b.toNat + 256 * leNat bs

/-- The `n` operand bytes at an offset, read whole as a number (R172, R174). -/
def operandAt (ops : List Byte) (offset n : Nat) : Nat :=
  leNat ((ops.drop offset).take n)

/-- One operand byte. -/
def byteAt (ops : List Byte) (offset : Nat) : Byte :=
  BitVec.ofNat 8 (operandAt ops offset 1)

/-- The 8-bit sum of a run of characters (section 10.3). -/
def sumBytes (bs : List Byte) : Byte :=
  bs.foldl (fun a b => a + b) 0

/-! ### Link characters (R157, R171) -/

/-- Whether the number of ones among a byte's bits is odd. -/
def oddOnes (b : Byte) : Bool :=
  [0, 1, 2, 3, 4, 5, 6, 7].foldl (fun acc i => xor acc (b.getLsbD i)) false

/-- A character is damaged when its ones, the address flag and the parity bit included, are odd in number, or its
stop bit is low (R157, R171). -/
def LinkChar.damaged (c : LinkChar) : Bool :=
  xor (xor (oddOnes c.data) c.flag) c.parity || !c.stop

/-- An undamaged character with its address flag set is an address character (R157). -/
def LinkChar.isAddress (c : LinkChar) : Bool := c.flag && !c.damaged

/-- A character as a transmitter forms it: even parity and a high stop bit (R171). -/
def LinkChar.make (data : Byte) (flag : Bool) : LinkChar :=
  { data := data, flag := flag, parity := xor (oddOnes data) flag, stop := true }

/-- The twelve bit times of a character in the order sent (Table 11.2): start, D0..D7, address flag, parity, stop. -/
def LinkChar.bits (c : LinkChar) : List Bool :=
  false :: [0, 1, 2, 3, 4, 5, 6, 7].map (fun i => c.data.getLsbD i) ++ [c.flag, c.parity, c.stop]

/-- The character that twelve bit times spell, when they are twelve. -/
def LinkChar.ofBits : List Bool → Option LinkChar
  | [_, d0, d1, d2, d3, d4, d5, d6, d7, f, p, t] =>
    some { data := BitVec.ofNat 8 (d0.toNat + 2 * d1.toNat + 4 * d2.toNat + 8 * d3.toNat + 16 * d4.toNat
             + 32 * d5.toNat + 64 * d6.toNat + 128 * d7.toNat)
           flag := f, parity := p, stop := t }
  | _ => none

/-! ### Operand layouts (R174, Table 11.7) -/

/-- The SET_STREAM operands at their offsets. -/
def SetStreamOps.ofBytes (b : List Byte) : SetStreamOps :=
  { stream := byteAt b 0
    role := byteAt b 1
    base := BitVec.ofNat 40 (operandAt b 2 5)
    slotSize := byteAt b 7
    slotCount := BitVec.ofNat 16 (operandAt b 8 2)
    marker := BitVec.ofNat 16 (operandAt b 10 2)
    commitMode := byteAt b 12
    lapPolarity := byteAt b 13
    reorderSpan := byteAt b 14
    silenceLimit := BitVec.ofNat 32 (operandAt b 15 4)
    assemblyLimit := BitVec.ofNat 32 (operandAt b 19 4)
    minInterval := BitVec.ofNat 32 (operandAt b 23 4)
    maxInterval := BitVec.ofNat 32 (operandAt b 27 4)
    missLimit := byteAt b 31
    fence := byteAt b 32 }

/-- The 33 bytes of the SET_STREAM operands. -/
def SetStreamOps.toBytes (o : SetStreamOps) : List Byte :=
  [o.stream, o.role] ++ leBytes 5 o.base.toNat ++ [o.slotSize] ++ leBytes 2 o.slotCount.toNat
    ++ leBytes 2 o.marker.toNat ++ [o.commitMode, o.lapPolarity, o.reorderSpan]
    ++ leBytes 4 o.silenceLimit.toNat ++ leBytes 4 o.assemblyLimit.toNat ++ leBytes 4 o.minInterval.toNat
    ++ leBytes 4 o.maxInterval.toNat ++ [o.missLimit, o.fence]

/-- The SET_PAIR operands at their offsets. -/
def SetPairOps.ofBytes (b : List Byte) : SetPairOps :=
  { pair := byteAt b 0
    requestStream := byteAt b 1
    completionStream := byteAt b 2
    quota := BitVec.ofNat 16 (operandAt b 3 2)
    holdLimit := byteAt b 5
    gm := byteAt b 6
    gd := byteAt b 7
    k := byteAt b 8
    tfloor := BitVec.ofNat 32 (operandAt b 9 4)
    tceil := BitVec.ofNat 32 (operandAt b 13 4)
    armingCount := byteAt b 17
    window := BitVec.ofNat 32 (operandAt b 18 4)
    toleranceShift := byteAt b 22
    confirmCount := byteAt b 23
    quiesceLimit := BitVec.ofNat 32 (operandAt b 24 4)
    expectFetch := byteAt b 28
    echoDeadline := BitVec.ofNat 32 (operandAt b 29 4)
    fence := byteAt b 33 }

/-- The 34 bytes of the SET_PAIR operands. -/
def SetPairOps.toBytes (o : SetPairOps) : List Byte :=
  [o.pair, o.requestStream, o.completionStream] ++ leBytes 2 o.quota.toNat
    ++ [o.holdLimit, o.gm, o.gd, o.k] ++ leBytes 4 o.tfloor.toNat ++ leBytes 4 o.tceil.toNat
    ++ [o.armingCount] ++ leBytes 4 o.window.toNat ++ [o.toleranceShift, o.confirmCount]
    ++ leBytes 4 o.quiesceLimit.toNat ++ [o.expectFetch] ++ leBytes 4 o.echoDeadline.toNat ++ [o.fence]

/-- The SET_SOURCE operands at their offsets. -/
def SetSourceOps.ofBytes (b : List Byte) : SetSourceOps :=
  { source := byteAt b 0, priority := byteAt b 1, enable := byteAt b 2, target := byteAt b 3,
    trigger := byteAt b 4 }

/-- The 5 bytes of the SET_SOURCE operands. -/
def SetSourceOps.toBytes (o : SetSourceOps) : List Byte :=
  [o.source, o.priority, o.enable, o.target, o.trigger]

/-- The SET_VERDICT operands at their offsets. -/
def SetVerdictOps.ofBytes (b : List Byte) : SetVerdictOps :=
  { channelLossLimit := BitVec.ofNat 32 (operandAt b 0 4)
    fenceOnLoss := byteAt b 4
    alarmDrive := byteAt b 5
    holdoffFactor := byteAt b 6
    releaseSettle := BitVec.ofNat 32 (operandAt b 7 4)
    holdoffLimit := BitVec.ofNat 32 (operandAt b 11 4) }

/-- The 15 bytes of the SET_VERDICT operands. -/
def SetVerdictOps.toBytes (o : SetVerdictOps) : List Byte :=
  leBytes 4 o.channelLossLimit.toNat ++ [o.fenceOnLoss, o.alarmDrive, o.holdoffFactor]
    ++ leBytes 4 o.releaseSettle.toNat ++ leBytes 4 o.holdoffLimit.toNat

/-! ### Frames (R163, R173) -/

/-- One row of Table 11.5: the code, the number of operands, the length of the reply data, and the command that the
operands of a frame on a link spell by Table 11.7. -/
structure CommandRow where
  code : Nat
  operands : Nat
  replyData : Nat
  command : Manager → List Byte → Instr

/-- Table 11.5. -/
def commandRows : List CommandRow :=
  [ ⟨0x01, 0, 61, fun l _ => .readSummary l⟩,
    ⟨0x10, 33, 0, fun l b => .setStream l (SetStreamOps.ofBytes b)⟩,
    ⟨0x11, 1, 90, fun l b => .readStream l (byteAt b 0)⟩,
    ⟨0x12, 1, 0, fun l b => .enableStream l (byteAt b 0)⟩,
    ⟨0x13, 1, 0, fun l b => .disableStream l (byteAt b 0)⟩,
    ⟨0x20, 34, 0, fun l b => .setPair l (SetPairOps.ofBytes b)⟩,
    ⟨0x21, 1, 151, fun l b => .readPair l (byteAt b 0)⟩,
    ⟨0x22, 1, 0, fun l b => .enablePair l (byteAt b 0)⟩,
    ⟨0x23, 1, 0, fun l b => .retirePair l (byteAt b 0)⟩,
    ⟨0x24, 1, 0, fun l b => .clearPair l (byteAt b 0)⟩,
    ⟨0x25, 1, 25, fun l b => .readEstimate l (byteAt b 0)⟩,
    ⟨0x30, 5, 0, fun l b => .setSource l (SetSourceOps.ofBytes b)⟩,
    ⟨0x31, 1, 26, fun l b => .readSource l (byteAt b 0)⟩,
    ⟨0x32, 2, 0, fun l b => .setThreshold l (byteAt b 0) (byteAt b 1)⟩,
    ⟨0x33, 0, 19, fun l _ => .claim l⟩,
    ⟨0x34, 1, 0, fun l b => .acknowledge l (byteAt b 0)⟩,
    ⟨0x40, 15, 0, fun l b => .setVerdict l (SetVerdictOps.ofBytes b)⟩,
    ⟨0x41, 0, 59, fun l _ => .readVerdict l⟩,
    ⟨0x42, 0, 0, fun l _ => .clearBoard l⟩,
    ⟨0x50, 5, 0, fun l b => .setProbe l (byteAt b 0) (BitVec.ofNat 32 (operandAt b 1 4))⟩,
    ⟨0x51, 5, 0, fun l b => .probeLine l (BitVec.ofNat 40 (operandAt b 0 5))⟩,
    ⟨0x52, 0, 103, fun l _ => .readProbe l⟩,
    ⟨0x60, 6, 0, fun l b => .setTime l (BitVec.ofNat 32 (operandAt b 0 4)) (BitVec.ofNat 16 (operandAt b 4 2))⟩,
    ⟨0x61, 0, 10, fun l _ => .readTime l⟩,
    ⟨0x7F, 0, 0, fun l _ => .resetPart l⟩ ]

/-- What the link makes of a frame received whole (R163): a code that is not in Table 11.5, a known code with the
wrong number of operands, or a command for its owner. -/
inductive FrameDecoded where
  | unknown
  | length
  | command (i : Instr)
deriving DecidableEq, Repr

/-- The row of Table 11.5 that a CODE names. -/
def commandRow? (code : Nat) : Option CommandRow :=
  commandRows.find? (fun r => r.code == code)

/-- The decoding of a frame's CODE and operands on a link (R163, R173). -/
def decodeFrame (link : Manager) (code : Byte) (operands : List Byte) : FrameDecoded :=
  match commandRow? code.toNat with
  | none => .unknown
  | some r => if operands.length = r.operands then .command (r.command link operands) else .length

/-- The CODE and operands of the frame that carries a command (Tables 11.5 and 11.7), for the commands that a frame
carries; no frame carries an event inside the part. -/
def frameOf : Instr → Option (Byte × List Byte)
  | .readSummary _ => some (0x01#8, [])
  | .setStream _ o => some (0x10#8, o.toBytes)
  | .readStream _ n => some (0x11#8, [n])
  | .enableStream _ n => some (0x12#8, [n])
  | .disableStream _ n => some (0x13#8, [n])
  | .setPair _ o => some (0x20#8, o.toBytes)
  | .readPair _ n => some (0x21#8, [n])
  | .enablePair _ n => some (0x22#8, [n])
  | .retirePair _ n => some (0x23#8, [n])
  | .clearPair _ n => some (0x24#8, [n])
  | .readEstimate _ n => some (0x25#8, [n])
  | .setSource _ o => some (0x30#8, o.toBytes)
  | .readSource _ n => some (0x31#8, [n])
  | .setThreshold _ t v => some (0x32#8, [t, v])
  | .claim _ => some (0x33#8, [])
  | .acknowledge _ n => some (0x34#8, [n])
  | .setVerdict _ o => some (0x40#8, o.toBytes)
  | .readVerdict _ => some (0x41#8, [])
  | .clearBoard _ => some (0x42#8, [])
  | .setProbe _ m w => some (0x50#8, m :: leBytes 4 w.toNat)
  | .probeLine _ a => some (0x51#8, leBytes 5 a.toNat)
  | .readProbe _ => some (0x52#8, [])
  | .setTime _ s t => some (0x60#8, leBytes 4 s.toNat ++ leBytes 2 t.toNat)
  | .readTime _ => some (0x61#8, [])
  | .resetPart _ => some (0x7F#8, [])
  | .powerOnReset _ | .tickBoundary _ | .rowActivate _ _ | .bankPrecharge _ | .rankPrecharge _
  | .columnCommand _ _ _ _ _ | .writeDataComplete _ _ _ _ | .readDataComplete _ _ _ | .corTakeRecord
  | .assemblyAbandon _ _ | .silence _ | .entryExpiry _ | .entryLoss _ | .windowEnd _ | .quiesceOverrun _
  | .pulseMissed _ | .echoOverdue | .probeGrant | .probeDataReturn _ _ | .probeGrantReleased
  | .grantWaitExpiry | .clockStop | .channelLoss | .clockResume | .returnAfterLoss | .boardResetAsserted
  | .boardResetReleased | .calmNJudgement _ | .holdoffRelease | .holdoffLimit | .addressCharacter _ _
  | .dataCharacter _ _ | .frameGapTimeout _ | .replyComplete _ | .abandonedReplyStop _ => none

/-- The link that a command is taken from, for the commands that arrive in frames. -/
def Instr.link? : Instr → Option Manager
  | .readSummary l | .setStream l _ | .readStream l _ | .enableStream l _ | .disableStream l _
  | .setPair l _ | .readPair l _ | .enablePair l _ | .retirePair l _ | .clearPair l _ | .readEstimate l _
  | .setSource l _ | .readSource l _ | .setThreshold l _ _ | .claim l | .acknowledge l _
  | .setVerdict l _ | .readVerdict l | .clearBoard l | .setProbe l _ _ | .probeLine l _ | .readProbe l
  | .setTime l _ _ | .readTime l | .resetPart l => some l
  | .powerOnReset _ | .tickBoundary _ | .rowActivate _ _ | .bankPrecharge _ | .rankPrecharge _
  | .columnCommand _ _ _ _ _ | .writeDataComplete _ _ _ _ | .readDataComplete _ _ _ | .corTakeRecord
  | .assemblyAbandon _ _ | .silence _ | .entryExpiry _ | .entryLoss _ | .windowEnd _ | .quiesceOverrun _
  | .pulseMissed _ | .echoOverdue | .probeGrant | .probeDataReturn _ _ | .probeGrantReleased
  | .grantWaitExpiry | .clockStop | .channelLoss | .clockResume | .returnAfterLoss | .boardResetAsserted
  | .boardResetReleased | .calmNJudgement _ | .holdoffRelease | .holdoffLimit | .addressCharacter _ _
  | .dataCharacter _ _ | .frameGapTimeout _ | .replyComplete _ | .abandonedReplyStop _ => none

/-- The characters of the whole command frame: LEN, CODE, operands, CHECK (section 11.3). -/
def frameChars (code : Byte) (operands : List Byte) : List Byte :=
  let body := BitVec.ofNat 8 (operands.length + 2) :: code :: operands
  body ++ [-(sumBytes body)]

end Sys2Proof
end

