-- ==== Sys2Proof/WellFormed.lean ====
section
/-!
DEFINITION. Which terms of `Instr` are commands of the part. The operand types already have the manual's ranges;
what is left is that a character stands in the row of its kind (R157: an ADDRESS_CHARACTER row carries an undamaged
character with its address flag set, a DATA_CHARACTER row any other) and that a slot index is one that some slot count
of Table 3.1 allows.
-/

namespace Sys2Proof

/-- A term of `Instr` is well formed when its character, if it has one, belongs to its row, and its slot index, if it
has one, is below the largest slot count. -/
def Instr.wellFormed : Instr → Bool
  | .addressCharacter _ c => c.isAddress
  | .dataCharacter _ c => !c.isAddress
  | .assemblyAbandon _ slot => decide (slot < 4096)
  | .powerOnReset _ | .tickBoundary _ | .rowActivate _ _ | .bankPrecharge _ | .rankPrecharge _
  | .columnCommand _ _ _ _ _ | .writeDataComplete _ _ _ _ | .readDataComplete _ _ _ | .corTakeRecord
  | .silence _ | .entryExpiry _ | .entryLoss _ | .windowEnd _ | .quiesceOverrun _
  | .pulseMissed _ | .echoOverdue | .probeGrant | .probeDataReturn _ _ | .probeGrantReleased
  | .grantWaitExpiry | .clockStop | .channelLoss | .clockResume | .returnAfterLoss | .boardResetAsserted
  | .boardResetReleased | .calmNJudgement _ | .holdoffRelease | .holdoffLimit | .frameGapTimeout _
  | .replyComplete _ | .abandonedReplyStop _
  | .readSummary _ | .setStream _ _ | .readStream _ _ | .enableStream _ _ | .disableStream _ _
  | .setPair _ _ | .readPair _ _ | .enablePair _ _ | .retirePair _ _ | .clearPair _ _ | .readEstimate _ _
  | .setSource _ _ | .readSource _ _ | .setThreshold _ _ _ | .claim _ | .acknowledge _ _
  | .setVerdict _ _ | .readVerdict _ | .clearBoard _ | .setProbe _ _ _ | .probeLine _ _ | .readProbe _
  | .setTime _ _ _ | .readTime _ | .resetPart _ => true

end Sys2Proof
end

