-- ==== Sys2Proof/Machine/State.lean ====
section
/-!
DEFINITION. The state of the T218 as plain data, block by block, with its values after power-on reset
(`State.powerOn`) and the machine right after reset (`State.reset`). Each field's docstring names the rule that
gives it. An output pin is a function of this state (Machine/Flags.lean) and has no field of its own.
-/

namespace Sys2Proof.Machine

/-! ### Channel Tap (section 2) -/

/-- One entry of the open-row table (R2). -/
inductive BankState where
  | closed
  | openRow (row : RowNumber)
deriving DecidableEq, Repr

/-- A resolved burst whose data has not yet completed on the channel (R2, R4, R5). -/
structure InFlight where
  line : LineAddr
  length : BurstLength
deriving DecidableEq, Repr

/-- The state of the clock presence monitor (R10). -/
inductive ClockPresence where
  | running
  | stopped
  | lost
deriving DecidableEq, Repr

/-- The state of the probe port (R14). -/
inductive PortPhase where
  | idle
  | requesting
  | reading
  | releasing
deriving DecidableEq, Repr

/-- The probe port (R14, R15): its state, the line it holds, the void mark, the state the target bank had at the grant,
and the level of PGNT last seen. -/
structure ProbePort where
  phase : PortPhase
  line : Option LineAddr
  voidMark : Bool
  savedBank : BankState
  pgnt : Bool
deriving DecidableEq, Repr

/-- One window of the TAP's window lookup (R6): the stream, the base, the slot size in lines and the slot count. -/
structure Window where
  stream : StreamIx
  base : Nat
  slotBytes : Nat
  slotCount : Nat
deriving DecidableEq, Repr

/-- The Channel Tap. -/
structure Tap where
  /-- R2: the open-row table, indexed rank, bank group, bank. -/
  openRows : Vector BankState 64
  /-- R4: resolved writes whose data is still to complete, oldest command first. -/
  writesInFlight : List InFlight
  /-- R5: resolved reads whose data is still to return, oldest command first. -/
  readsInFlight : List InFlight
  /-- R6: the window lookup. -/
  lookup : List Window
  /-- R9: the observation counts. -/
  writeCount : BitVec 32
  readCount : BitVec 32
  outsideCount : BitVec 32
  unobservedCount : BitVec 16
  /-- R10: the clock presence monitor. -/
  presence : ClockPresence
  absence : Nat
  /-- R12: the judged level of BRST_N, true while ASSERTED. -/
  brstAsserted : Bool
  /-- R13: the discontinuity count. -/
  discontinuities : BitVec 16
  /-- R14: the probe port. -/
  port : ProbePort
deriving DecidableEq, Repr

/-! ### Record Assembler and Commit Queue (section 3) -/

/-- The role of a stream (Table 3.1). -/
inductive Role where
  | request
  | completion
  | pulse
deriving DecidableEq, Repr

/-- The commit mode of a stream (Table 3.1). -/
inductive CommitMode where
  | header
  | tail
deriving DecidableEq, Repr

/-- The lap polarity of a stream (Table 3.1). -/
inductive LapPolarity where
  | normal
  | inverted
deriving DecidableEq, Repr

/-- The slot sizes of Table 3.1. -/
inductive SlotSize where
  | bytes64
  | bytes128
  | bytes256
  | bytes512
deriving DecidableEq, Repr

/-- A stream descriptor (R16, Table 3.1). -/
structure StreamDesc where
  role : Role
  base : Nat
  slotSize : SlotSize
  slotCount : Nat
  marker : BitVec 16
  commitMode : CommitMode
  lapPolarity : LapPolarity
  reorderSpan : Nat
  silenceLimit : Nat
  assemblyLimit : Nat
  minInterval : Nat
  maxInterval : Nat
  missLimit : Nat
  fence : Bool
deriving DecidableEq, Repr

/-- The six fields of a record header (R170), as written. -/
structure Header where
  marker : BitVec 16
  kind : Byte
  flags : Byte
  tag : BitVec 32
  sequence : BitVec 32
  spare : BitVec 32
deriving DecidableEq, Repr

/-- An assembly (R22). `lines` holds for each line of the slot its signature contribution when the line is certain. -/
structure Assembly where
  slot : Nat
  openedAt : Clock
  lines : Vector (Option (BitVec 32)) 8
  header : Option Header
deriving DecidableEq, Repr

/-- The sequence state of a stream (R32). Place d of the bitmap is bit d. -/
inductive SeqState where
  | unsynchronised
  | synchronised (next : BitVec 32) (places : BitVec 4)
deriving DecidableEq, Repr

/-- The kinds of record (R21). -/
inductive RecordKind where
  | work
  | quiesce
  | resume
  | pulse
deriving DecidableEq, Repr

/-- An accepted record (R34). -/
structure Record where
  stream : StreamIx
  slot : Nat
  kind : RecordKind
  flags : Byte
  tag : BitVec 32
  sequence : BitVec 32
  commitTime : Clock
  signature : BitVec 32
  certain : LineSet
  /-- the gap size, when the record carries the GAP flag -/
  gap : Option (BitVec 32)
  overrun : Bool
deriving DecidableEq, Repr

/-- The stream counters of Table 3.2. -/
structure StreamCounters where
  accepted : BitVec 32
  dropped : BitVec 32
  gaps : BitVec 16
  gapTotal : BitVec 32
  lost : BitVec 16
  torn : BitVec 16
  abandoned : BitVec 16
  unassembled : BitVec 16
  silences : BitVec 16
deriving DecidableEq, Repr

/-- The pulse interval timer of a stream (R104, R107). -/
inductive PulseTimer where
  | stopped
  | held
  | running (reference : Clock)
deriving DecidableEq, Repr

/-- The pulse state and pulse counters of a stream (R104). -/
structure PulseState where
  last : Option Clock
  timer : PulseTimer
  missCount : Nat
  pulses : BitVec 32
  early : BitVec 16
  missed : BitVec 16
deriving DecidableEq, Repr

/-- One stream: its descriptor and all the state kept for it. -/
structure Stream where
  desc : StreamDesc
  enabled : Bool
  assemblies : List Assembly
  seq : SeqState
  overrunPending : Bool
  silent : Bool
  lastAccepted : Clock
  counters : StreamCounters
  pulse : PulseState
deriving DecidableEq, Repr

/-! ### Correlator, Pairing Table, Latency Estimator and Health Evaluator (sections 4 to 6) -/

/-- A pair descriptor (R42, Table 4.1). A stream field of 0 is `none`. -/
structure PairDesc where
  requestStream : Option StreamIx
  completionStream : Option StreamIx
  quota : Nat
  holdLimit : Nat
  gm : Nat
  gd : Nat
  k : Nat
  tfloor : Nat
  tceil : Nat
  armingCount : Nat
  window : Nat
  toleranceShift : Nat
  confirmCount : Nat
  quiesceLimit : Nat
  expectFetch : Bool
  echoDeadline : Nat
  fence : Bool
deriving DecidableEq, Repr

/-- An entry of the Pairing Table (R48). The pair and the list are given by the list that holds it. -/
structure Entry where
  tag : BitVec 32
  slot : Nat
  arrival : Clock
  holdCount : Nat
  retryCount : Nat
  pickup : Option Clock
deriving DecidableEq, Repr

/-- An entry of a late list, with its late-since (R48). -/
structure LateEntry where
  entry : Entry
  lateSince : Clock
deriving DecidableEq, Repr

/-- The seven counters of a pair (R66). -/
structure PairCounters where
  tracked : BitVec 32
  completed : BitVec 32
  late : BitVec 32
  lost : BitVec 32
  discarded : BitVec 32
  orphans : BitVec 32
  untracked : BitVec 32
deriving DecidableEq, Repr

/-- The estimator of a pair (R75) but for T: M16, D16, n and the last sample. -/
structure Estimator where
  m16 : Nat
  d16 : Nat
  n : Nat
  lastSample : Option Nat
deriving DecidableEq, Repr

/-- The health states of a pair (Table 6.2). -/
inductive Health where
  | disabled
  | healthy
  | watch
  | suspect
  | failed
  | quiesced
  | draining
deriving DecidableEq, Repr

/-- The classes of an ended window (R91). -/
inductive WindowClass where
  | good
  | bad
  | idle
deriving DecidableEq, Repr

/-- The evaluation window of a pair (R88). `held` is set while a discontinuity holds it (R103); its start time is then
of no account. -/
structure EvalWindow where
  held : Bool
  start : Clock
  paired : BitVec 16
  adverse : BitVec 16
  taint : Bool
deriving DecidableEq, Repr

/-- The health counters of Table 6.3. -/
structure HealthCounters where
  good : BitVec 16
  bad : BitVec 16
  idle : BitVec 16
  suspects : BitVec 16
  failures : BitVec 16
  quiesces : BitVec 16
  resumes : BitVec 16
  overruns : BitVec 16
  ignored : BitVec 16
deriving DecidableEq, Repr

/-- What the HEV keeps for a pair beside its health state (R88, R92, R94, R98, R101). In the history `true` is a BAD
sample and `false` a GOOD one, oldest first. -/
structure HealthRecord where
  window : Option EvalWindow
  history : List Bool
  lastClass : Option WindowClass
  confirm : Nat
  promotionPending : Bool
  quiesceStart : Option Clock
  counters : HealthCounters
deriving DecidableEq, Repr

/-- One pair: its descriptor and all the state kept for it. -/
structure Pair where
  desc : PairDesc
  health : Health
  openList : List Entry
  lateList : List LateEntry
  counters : PairCounters
  est : Estimator
  /-- R75: the pair's current timeout T. -/
  timeout : Nat
  hev : HealthRecord
deriving DecidableEq, Repr

/-! ### Echo Checker and Probe Engine (section 7) -/

/-- The probe status of an echo entry (Table 7.1). -/
inductive ProbeStatus where
  | watching
  | queued
  | probing
deriving DecidableEq, Repr

/-- An entry of the echo list (R108, Table 7.1). -/
structure EchoEntry where
  pair : PairIx
  stream : StreamIx
  slot : Nat
  slotBase : LineAddr
  written : LineSet
  expected : BitVec 32
  commitTime : Clock
  readMask : LineSet
  readSum : BitVec 32
  status : ProbeStatus
deriving DecidableEq, Repr

/-- The slot of a stream that an echo entry watches; it names the entry (R108). -/
structure SlotKey where
  stream : StreamIx
  slot : Nat
deriving DecidableEq, Repr

/-- The echo counters of Table 7.2. -/
structure EchoCounters where
  confirmed : BitVec 16
  mismatched : BitVec 16
  overtaken : BitVec 16
  unread : BitVec 16
  starved : BitVec 16
  dropped : BitVec 16
  unwatched : BitVec 16
  withdrawn : BitVec 16
  flushed : BitVec 16
deriving DecidableEq, Repr

/-- What the line in hand is for (R119). -/
inductive Purpose where
  | currentEntry
  | singleProbe
deriving DecidableEq, Repr

/-- The line in hand of the PRB (R119). -/
structure LineInHand where
  purpose : Purpose
  address : LineAddr
  index : Nat
  takenAt : Clock
  discard : Bool
deriving DecidableEq, Repr

/-- The state of the PRB with its line in hand (R119). -/
inductive PrbState where
  | idle
  | requesting (line : LineInHand)
  | reading (line : LineInHand)
deriving DecidableEq, Repr

/-- The outcome of a single probe, with its data when it is OK (R123, R124). -/
inductive SingleOutcome where
  | ok (data : LineData)
  | starved
  | overtaken
deriving DecidableEq, Repr

/-- The single diagnostic probe (R123). -/
inductive SingleProbe where
  | idle
  | busy (line : LineAddr)
  | done (line : LineAddr) (outcome : SingleOutcome)
deriving DecidableEq, Repr

/-- The Echo Checker and the Probe Engine. -/
structure Echo where
  /-- R108: the echo list, oldest first. -/
  entries : List EchoEntry
  /-- R116: the probe queue, in the order the entries became overdue. -/
  probeQueue : List SlotKey
  /-- R117: whether the probe mode is FETCH_CHECK. -/
  fetchCheck : Bool
  /-- R117: the grant wait limit. -/
  waitLimit : Nat
  /-- R119: the PRB. The current entry is the PROBING entry of the list. -/
  prb : PrbState
  /-- R123: the single probe. -/
  single : SingleProbe
  counters : EchoCounters
deriving DecidableEq, Repr

/-! ### Verdict Unit (section 8) -/

/-- The hold-off factor (Table 8.1) and the six verdict settings (R129). -/
structure VerdictSettings where
  channelLossLimit : Nat
  fenceOnLoss : Bool
  alarmDrive : Bool
  holdoffFactor : Nat
  releaseSettle : Nat
  holdoffLimit : Nat
deriving DecidableEq, Repr

/-- The state of a hold-off (R135) but for F. -/
structure HoldOff where
  entryTime : Clock
  highRunStart : Option Clock
  limitPassed : Bool
deriving DecidableEq, Repr

/-- The verdict states (Table 8.2). -/
inductive Verdict where
  | normal
  | holdoff (h : HoldOff)
  | fault
deriving DecidableEq, Repr

/-- A fence trigger (R131). -/
inductive Trigger where
  | pair (p : PairIx)
  | stream (n : StreamIx)
  | channelLoss
deriving DecidableEq, Repr

/-- The standing-trigger set (R131): bit i of `pairs` is pair i + 1, bit i of `streams` is stream i + 1. -/
structure TriggerSet where
  pairs : BitVec 8
  streams : BitVec 16
  channelLoss : Bool
deriving DecidableEq, Repr

/-- A value of the stamp clock (R72). -/
structure Stamp where
  seconds : BitVec 32
  tick : Nat
deriving DecidableEq, Repr

/-- The fault origin (R133). -/
structure FaultOrigin where
  trigger : Trigger
  clock : Clock
  stamp : Stamp
deriving DecidableEq, Repr

/-- The verdict counters of Table 8.3. -/
structure VerdictCounters where
  faults : BitVec 16
  triggers : BitVec 16
  holdoffs : BitVec 16
  limitPasses : BitVec 16
  channelLosses : BitVec 16
  boardClears : BitVec 16
deriving DecidableEq, Repr

/-- The Verdict Unit. -/
structure Vrd where
  settings : VerdictSettings
  verdict : Verdict
  /-- R81, R135: the factor F supplied to the EST. -/
  factor : Nat
  triggers : TriggerSet
  origin : Option FaultOrigin
  /-- R134: the sensed level of CALM_N, true while high. -/
  sensedHigh : Bool
  counters : VerdictCounters
deriving DecidableEq, Repr

/-! ### Incident Arbiter (section 9) -/

/-- How ACKNOWLEDGE treats a source's standing condition (R143). -/
inductive SourceTrigger where
  | latched
  | level
deriving DecidableEq, Repr

/-- An incident source (R143). The cause set is the bit set of Table 11.4. -/
structure Source where
  priority : Nat
  enable : Bool
  target : Manager
  trigger : SourceTrigger
  pending : Bool
  causes : BitVec 16
  count : BitVec 8
  firstStamp : Option Stamp
  lastStamp : Option Stamp
deriving DecidableEq, Repr

/-- The Incident Arbiter: the 27 sources and the two thresholds. -/
structure Iar where
  sources : Vector Source 27
  thresholdA : Nat
  thresholdB : Nat
deriving DecidableEq, Repr

/-! ### Management Links (section 10) -/

/-- The selection of a link (R158). -/
inductive Selection where
  | deselected
  | selected
  | broadcast
deriving DecidableEq, Repr

/-- A completed character as the receiver has judged it, with its completion time (R157). -/
structure RxChar where
  value : Byte
  address : Bool
  damaged : Bool
  time : Clock
deriving DecidableEq, Repr

/-- A frame being received (R159): LEN, the character count, the running sum, the damaged mark, and the characters
after LEN in the order taken. -/
structure Frame where
  len : Nat
  count : Nat
  sum : Byte
  damaged : Bool
  chars : List Byte
deriving DecidableEq, Repr

/-- The state of the frame intake (Table 10.1). HANDING holds the command handed to its owner and the overrun mark of
R160; REPLYING remembers whether the intake enters SKIPPING when the reply ends (R160, R164). -/
inductive Intake where
  | deselected
  | waiting
  | receiving (frame : Frame)
  | skipping
  | handing (command : Instr) (overrun : Bool)
  | replying (skipAfter : Bool)
deriving DecidableEq, Repr

/-- The transmitter of a link (R162, R164): idle with TXE released, sending the characters of a reply, or finishing the
last character of an abandoned reply. -/
inductive Transmitter where
  | idle
  | sending (chars : List LinkChar)
  | finishing
deriving DecidableEq, Repr

/-- The kinds of counted intake error (R169). -/
inductive ErrorKind where
  | character
  | check
  | badLen
  | overrun
  | gap
deriving DecidableEq, Repr

/-- The reply statuses (R164, Table 11.6). -/
inductive Status where
  | ok
  | clamped
  | still
  | busy
  | range
  | overlap
  | notOwner
  | unknown
  | length
deriving DecidableEq, Repr

/-- A reply as its owner forms it: the status and the reply data (R163). -/
structure Reply where
  status : Status
  data : List Byte
deriving DecidableEq, Repr

/-- A management link. -/
structure Link where
  selection : Selection
  /-- R157: the two-place receive buffer, in the order the characters completed. -/
  buffer : List RxChar
  intake : Intake
  /-- R161: the completion time of the last character the intake took. -/
  lastTaken : Clock
  tx : Transmitter
  /-- The MODEL's own field (notes/assumptions/6): the reply last formed for a command of this link. -/
  lastReply : Option Reply
  /-- The MODEL's own field (notes/assumptions/6): the command last dropped from HANDING by a reset (R168), while its
  row may still wait. -/
  dropped : Option Instr
  errorCount : BitVec 16
  frameCount : BitVec 32
  lastError : Option ErrorKind
deriving DecidableEq, Repr

/-! ### The whole part -/

/-- The state of the T218. -/
structure State where
  /-- R3, R157, R158: the straps as read at power-on reset. -/
  straps : Straps
  /-- R70: the deadline clock. -/
  clock : Clock
  /-- R72: the stamp clock. -/
  stamp : Stamp
  tap : Tap
  streams : Vector Stream 16
  /-- R36: the Commit Queue, head first. -/
  commitQueue : List Record
  pairs : Vector Pair 8
  echo : Echo
  vrd : Vrd
  iar : Iar
  linkA : Link
  linkB : Link
  /-- The MODEL's own field: the commands that are waiting, first in, first out. -/
  pending : List Instr
deriving DecidableEq, Repr

/-- Why the machine stops. No command of this part stops it: the manual gives every command an effect in every state,
so there is no reason to list. -/
inductive Fault where
deriving DecidableEq, Repr

/-- Why a command has no meaning. Safe: the model stops where the part goes on. -/
inductive Refusal where
  /-- Raised by an arm of `exec` whose command has no meaning yet; none is left. -/
  | notModelled (mnemonic : String)
deriving DecidableEq, Repr

/-! ### Values after power-on reset -/

/-- The Default column of Table 3.1 (R16). -/
def StreamDesc.default : StreamDesc :=
  { role := .request, base := 0, slotSize := .bytes64, slotCount := 16, marker := 0, commitMode := .header
    lapPolarity := .normal, reorderSpan := 1, silenceLimit := 0, assemblyLimit := 1000, minInterval := 0
    maxInterval := 10000, missLimit := 3, fence := false }

/-- Every stream counter 0 (R20). -/
def StreamCounters.zero : StreamCounters :=
  { accepted := 0, dropped := 0, gaps := 0, gapTotal := 0, lost := 0, torn := 0, abandoned := 0
    unassembled := 0, silences := 0 }

/-- A stream after reset (R39, R104). -/
def Stream.initial : Stream :=
  { desc := .default, enabled := false, assemblies := [], seq := .unsynchronised, overrunPending := false
    silent := false, lastAccepted := 0, counters := .zero
    pulse := { last := none, timer := .stopped, missCount := 0, pulses := 0, early := 0, missed := 0 } }

/-- The Default column of Table 4.1 (R42). -/
def PairDesc.default : PairDesc :=
  { requestStream := none, completionStream := none, quota := 256, holdLimit := 2, gm := 3, gd := 2, k := 4
    tfloor := 50, tceil := 100000, armingCount := 16, window := 10000, toleranceShift := 6, confirmCount := 3
    quiesceLimit := 3000000, expectFetch := false, echoDeadline := 5000, fence := false }

/-- Every pair counter 0 (R66). -/
def PairCounters.zero : PairCounters :=
  { tracked := 0, completed := 0, late := 0, lost := 0, discarded := 0, orphans := 0, untracked := 0 }

/-- An estimator after it was reset (R75). -/
def Estimator.initial : Estimator := { m16 := 0, d16 := 0, n := 0, lastSample := none }

/-- Every health counter 0 (R101). -/
def HealthCounters.zero : HealthCounters :=
  { good := 0, bad := 0, idle := 0, suspects := 0, failures := 0, quiesces := 0, resumes := 0, overruns := 0
    ignored := 0 }

/-- The HEV's record of a pair after reset (R102). -/
def HealthRecord.initial : HealthRecord :=
  { window := none, history := [], lastClass := none, confirm := 0, promotionPending := false
    quiesceStart := none, counters := .zero }

/-- A pair after reset (R68, R75, R102); T is the default Tceil times an F of 1 (R82). -/
def Pair.initial : Pair :=
  { desc := .default, health := .disabled, openList := [], lateList := [], counters := .zero
    est := .initial, timeout := 100000, hev := .initial }

/-- The Echo Checker and the Probe Engine after reset (R127). -/
def Echo.initial : Echo :=
  { entries := [], probeQueue := [], fetchCheck := false, waitLimit := 200, prb := .idle, single := .idle
    counters := { confirmed := 0, mismatched := 0, overtaken := 0, unread := 0, starved := 0, dropped := 0
                  unwatched := 0, withdrawn := 0, flushed := 0 } }

/-- The defaults of Table 8.1 (R129). -/
def VerdictSettings.default : VerdictSettings :=
  { channelLossLimit := 1000, fenceOnLoss := false, alarmDrive := false, holdoffFactor := 2
    releaseSettle := 20000, holdoffLimit := 300000 }

/-- The empty standing-trigger set (R131). -/
def TriggerSet.empty : TriggerSet := { pairs := 0, streams := 0, channelLoss := false }

/-- The Verdict Unit after power-on reset (R134, R141). -/
def Vrd.initial : Vrd :=
  { settings := .default, verdict := .normal, factor := 1, triggers := .empty, origin := none
    sensedHigh := true
    counters := { faults := 0, triggers := 0, holdoffs := 0, limitPasses := 0, channelLosses := 0
                  boardClears := 0 } }

/-- A source after reset (R155). -/
def Source.initial : Source :=
  { priority := 0, enable := false, target := .A, trigger := .latched, pending := false, causes := 0
    count := 0, firstStamp := none, lastStamp := none }

/-- The Incident Arbiter after reset (R147, R155). -/
def Iar.initial : Iar :=
  { sources := Vector.replicate 27 Source.initial, thresholdA := 0, thresholdB := 0 }

/-- The probe port after reset (R15). The level of PGNT last seen at power-on is a DESIGN CHOICE (notes/assumptions/2). -/
def ProbePort.initial : ProbePort :=
  { phase := .idle, line := none, voidMark := false, savedBank := .closed, pgnt := false }

/-- The Channel Tap after power-on reset (R2, R6, R9, R10, R12, R15). -/
def Tap.initial : Tap :=
  { openRows := Vector.replicate 64 BankState.closed, writesInFlight := [], readsInFlight := [], lookup := []
    writeCount := 0, readCount := 0, outsideCount := 0, unobservedCount := 0, presence := .stopped
    absence := 0, brstAsserted := false, discontinuities := 0, port := .initial }

/-- A management link after power-on reset (R169). -/
def Link.initial : Link :=
  { selection := .deselected, buffer := [], intake := .deselected, lastTaken := 0, tx := .idle
    lastReply := none, dropped := none, errorCount := 0, frameCount := 0, lastError := none }

/-- The part right after power-on reset with the given straps (section 1.4, R39, R68, R75, R102, R127, R141, R155,
R169), no command waiting. -/
def State.powerOn (straps : Straps) : State :=
  { straps := straps, clock := 0, stamp := { seconds := 0, tick := 0 }, tap := .initial
    streams := Vector.replicate 16 Stream.initial, commitQueue := []
    pairs := Vector.replicate 8 Pair.initial, echo := .initial, vrd := .initial, iar := .initial
    linkA := .initial, linkB := .initial, pending := [] }

/-- The machine right after reset. The straps are inputs; that they are all low is a DESIGN CHOICE
(notes/assumptions/1). -/
def State.reset : State := State.powerOn { stn := 0, baud := false, amap := 0 }

end Sys2Proof.Machine
end

