-- ==== Sys2Proof/Machine/Ops.lean ====
section
/-!
DEFINITION. The shared operations: reading and changing one stream, pair, source or link; counters that wrap and
counters that saturate; elapsed times (R71); posting a cause (R144); counting an event in a pair's window (R89, R90);
and the answer of an owner going back to its link (R163).
-/

namespace Sys2Proof.Machine

/-! ### Numbers -/

/-- A 16-bit counter that saturates, raised by 1. -/
def satInc (c : BitVec 16) : BitVec 16 := if c = 0xFFFF#16 then c else c + 1

/-- An 8-bit counter that saturates, raised by 1 (R143). -/
def satInc8 (c : BitVec 8) : BitVec 8 := if c = 0xFF#8 then c else c + 1

/-- The elapsed time from a stored deadline-clock value, modulo 2^32 (R71). -/
def elapsed (now since : Clock) : Nat := (now - since).toNat

/-- A value brought within a range: raised to `lo` when below it, lowered to `hi` when above it. -/
def clampTo (lo hi v : Nat) : Nat := min (max v lo) hi

/-! ### One of the tables' places -/

/-- Stream n of the part. -/
def State.stream (s : State) (n : StreamIx) : Stream := s.streams[n.1]'n.2

/-- Pair p of the part. -/
def State.pair (s : State) (p : PairIx) : Pair := s.pairs[p.1]'p.2

/-- Source i of the part. -/
def State.source (s : State) (i : SourceIx) : Source := s.iar.sources[i.1]'i.2

/-- The link of a manager. -/
def State.link (s : State) : Manager → Link
  | .A => s.linkA
  | .B => s.linkB

/-- The threshold of a target (R147). -/
def Iar.threshold (r : Iar) : Manager → Nat
  | .A => r.thresholdA
  | .B => r.thresholdB

def State.modStream (n : StreamIx) (f : Stream → Stream) (s : State) : State :=
  { s with streams := vupd s.streams n f }

def State.modPair (p : PairIx) (f : Pair → Pair) (s : State) : State :=
  { s with pairs := vupd s.pairs p f }

def State.modSource (i : SourceIx) (f : Source → Source) (s : State) : State :=
  { s with iar := { s.iar with sources := vupd s.iar.sources i f } }

def State.modLink (m : Manager) (f : Link → Link) (s : State) : State :=
  match m with
  | .A => { s with linkA := f s.linkA }
  | .B => { s with linkB := f s.linkB }

def State.modTap (f : Tap → Tap) (s : State) : State := { s with tap := f s.tap }

def State.modPort (f : ProbePort → ProbePort) (s : State) : State :=
  s.modTap fun t => { t with port := f t.port }

def State.modEcho (f : Echo → Echo) (s : State) : State := { s with echo := f s.echo }

def State.modVrd (f : Vrd → Vrd) (s : State) : State := { s with vrd := f s.vrd }

/-- The stream that a byte numbers 1..16 (R174). -/
def streamOf (n : Nat) : Option StreamIx :=
  if h : 1 ≤ n ∧ n ≤ 16 then some ⟨n - 1, by omega⟩ else none

/-- The pair that a byte numbers 1..8 (R174). -/
def pairNumbered (n : Nat) : Option PairIx :=
  if h : 1 ≤ n ∧ n ≤ 8 then some ⟨n - 1, by omega⟩ else none

/-- The source that a byte numbers 1..27 (R174). -/
def sourceOf (n : Nat) : Option SourceIx :=
  if h : 1 ≤ n ∧ n ≤ 27 then some ⟨n - 1, by omega⟩ else none

/-- The pair whose descriptor names the stream, whatever its state (R42). -/
def State.pairOf (s : State) (n : StreamIx) : Option PairIx :=
  allPairs.find? fun p =>
    decide ((s.pair p).desc.requestStream = some n) || decide ((s.pair p).desc.completionStream = some n)

/-! ### Causes (R143, R144) -/

/-- The kinds of cause (Table 9.2). -/
inductive Cause where
  | markerBad | kindBad | torn | abandoned | assemblyFull | slotMismatch | lapStale | seqStale | seqGap
  | silence | pulseEarly | pulseMissed
  | expiredTouched | expiredUntouched | late | lost | orphan | holdLimit | quotaFull | tableFull
  | quiesceOverrun | suspect | suspectHeld | failed | unread | mismatch | starved
  | echoDropped
  | commitOverrun
  | boardFault | holdoffEntered | holdoffLimit | channelLost
deriving DecidableEq, Repr

/-- The place of a cause in its class's cause set (Table 11.4). -/
def Cause.bit : Cause → Nat
  | .markerBad => 0 | .kindBad => 1 | .torn => 2 | .abandoned => 3 | .assemblyFull => 4 | .slotMismatch => 5
  | .lapStale => 6 | .seqStale => 7 | .seqGap => 8 | .silence => 9 | .pulseEarly => 10 | .pulseMissed => 11
  | .expiredTouched => 0 | .expiredUntouched => 1 | .late => 2 | .lost => 3 | .orphan => 4 | .holdLimit => 5
  | .quotaFull => 6 | .tableFull => 7 | .quiesceOverrun => 8 | .suspect => 9 | .suspectHeld => 10 | .failed => 11
  | .unread => 12 | .mismatch => 13 | .starved => 14
  | .echoDropped => 0
  | .commitOverrun => 0
  | .boardFault => 0 | .holdoffEntered => 1 | .holdoffLimit => 2 | .channelLost => 3

/-- The set that holds one cause. -/
def Cause.mask (c : Cause) : BitVec 16 := BitVec.ofNat 16 (2 ^ c.bit)

/-- The source of stream n is source n (R143). -/
def streamSource (n : StreamIx) : SourceIx := ⟨n.1, by omega⟩

/-- The source of pair n is source n + 16 (R143). -/
def pairSource (p : PairIx) : SourceIx := ⟨p.1 + 16, by omega⟩

/-- Source 25, the echo list (Table 9.1). -/
def echoSource : SourceIx := 24

/-- Source 26, the commit path (Table 9.1). -/
def commitSource : SourceIx := 25

/-- Source 27, the board verdict (Table 9.1). -/
def boardSource : SourceIx := 26

/-- A source after a posting of a cause with the stamp clock as it stands (R144). -/
def Source.posted (c : Cause) (now : Stamp) (x : Source) : Source :=
  { x with
    causes := x.causes ||| c.mask
    count := satInc8 x.count
    firstStamp := some (x.firstStamp.getD now)
    lastStamp := some now
    pending := true }

/-- A posting of a cause to a source (R144). -/
def post (i : SourceIx) (c : Cause) (s : State) : State :=
  s.modSource i (Source.posted c s.stamp)

/-! ### Windows (R88, R89, R90) -/

/-- A pair is enabled in the states that have a window (section 4.1, R88). -/
def Health.enabled : Health → Bool
  | .healthy | .watch | .suspect | .failed | .quiesced => true
  | .disabled | .draining => false

/-- A pair whose entries the COR judges: enabled or DRAINING. -/
def Health.active : Health → Bool
  | .disabled => false
  | _ => true

/-- A window just started: running, or HELD while BRST_N is asserted (R88, R103). -/
def freshWindow (s : State) : EvalWindow :=
  { held := s.tap.brstAsserted, start := s.clock, paired := 0, adverse := 0, taint := false }

/-- A window with a paired event counted, when it is running (R89). -/
def EvalWindow.countPaired (w : EvalWindow) : EvalWindow :=
  if w.held then w else { w with paired := satInc w.paired }

/-- A window with an adverse event counted, when it is running (R89). -/
def EvalWindow.countAdverse (w : EvalWindow) : EvalWindow :=
  if w.held then w else { w with adverse := satInc w.adverse }

/-- A window with an expiry or a loss counted, when it is running and not tainted (R89, R90). -/
def EvalWindow.countExpiry (w : EvalWindow) : EvalWindow :=
  if w.taint then w else w.countAdverse

/-- A window with its taint flag set, when it is running (R90). -/
def EvalWindow.tainted (w : EvalWindow) : EvalWindow :=
  if w.held then w else { w with taint := true }

def Pair.modWindow (f : EvalWindow → EvalWindow) (q : Pair) : Pair :=
  { q with hev := { q.hev with window := q.hev.window.map f } }

/-- A paired event of a pair, counted for an enabled pair alone (R54 to R57, R89). -/
def pairedEvent (p : PairIx) (s : State) : State :=
  if (s.pair p).health.enabled then s.modPair p (Pair.modWindow EvalWindow.countPaired) else s

/-- An orphan or an echo finding of a pair, counted for an enabled pair alone (R58, R89, R113). -/
def adverseEvent (p : PairIx) (s : State) : State :=
  if (s.pair p).health.enabled then s.modPair p (Pair.modWindow EvalWindow.countAdverse) else s

/-- An expiry or a loss of a pair, counted for an enabled pair that is not QUIESCED (R62, R63, R89, R90). -/
def expiryEvent (p : PairIx) (s : State) : State :=
  if (s.pair p).health.enabled ∧ (s.pair p).health ≠ .quiesced then
    s.modPair p (Pair.modWindow EvalWindow.countExpiry)
  else s

/-! ### The rebuilt window lookup (R6) -/

/-- The number of lines of a slot (Table 3.1). -/
def SlotSize.lines : SlotSize → Nat
  | .bytes64 => 1
  | .bytes128 => 2
  | .bytes256 => 4
  | .bytes512 => 8

/-- The bytes of a slot (Table 3.1). -/
def SlotSize.bytes (z : SlotSize) : Nat := 64 * z.lines

/-- The window of a stream by its descriptor (R6, R16). -/
def windowOf (n : StreamIx) (d : StreamDesc) : Window :=
  { stream := n, base := d.base, slotBytes := d.slotSize.bytes, slotCount := d.slotCount }

/-- The first byte beyond a window (R6, R16). -/
def Window.limit (w : Window) : Nat := w.base + w.slotCount * w.slotBytes

/-- Two windows share at least one byte (R18). -/
def Window.meets (v w : Window) : Bool := decide (v.base < w.limit ∧ w.base < v.limit)

/-- The windows of the enabled streams, in stream order (R6). -/
def enabledWindows (s : State) : List Window :=
  (allStreams.filter fun n => (s.stream n).enabled).map fun n => windowOf n (s.stream n).desc

/-- The TAP's lookup rebuilt whole (R6). -/
def rebuildLookup (s : State) : State :=
  s.modTap fun t => { t with lookup := enabledWindows s }

/-! ### The answer of an owner (R163, R164) -/

/-- The value of a status (Table 11.6). -/
def Status.code : Status → Byte
  | .ok => 0x00 | .clamped => 0x01 | .still => 0x02 | .busy => 0x10 | .range => 0x11 | .overlap => 0x12
  | .notOwner => 0x13 | .unknown => 0x20 | .length => 0x21

/-- The values of a reply's characters: LEN, STATUS, the reply data and CHECK (R164). -/
def Reply.bytes (r : Reply) : List Byte :=
  let body := BitVec.ofNat 8 (r.data.length + 2) :: r.status.code :: r.data
  body ++ [-(sumBytes body)]

/-- The characters of a reply as the transmitter forms them: address flag clear, even parity and a high stop bit (R164,
R171). -/
def Reply.chars (r : Reply) : List LinkChar := r.bytes.map fun b => LinkChar.make b false

/-- A reply that carries no data. -/
def Reply.plain (st : Status) : Reply := { status := st, data := [] }

/-- A counted intake error (R160, R169). -/
def Link.countError (k : ErrorKind) (l : Link) : Link :=
  { l with errorCount := satInc l.errorCount, lastError := some k }

end Sys2Proof.Machine
end

