-- ==== Sys2Proof/Machine/Operands.lean ====
section
/-!
DEFINITION. How the owners read their operands and code their values (R172): the one-byte codes of Table 11.3, the
range checks and clamps of the SET commands, and the byte forms that reply data is made of.
-/

namespace Sys2Proof

open Machine

namespace Machine

/-! ### Codes of operands (Table 11.3) -/

def roleOf (b : Byte) : Option Role :=
  if b = 0 then some .request else if b = 1 then some .completion else if b = 2 then some .pulse else none

def slotSizeOf (b : Byte) : Option SlotSize :=
  if b = 0 then some .bytes64 else if b = 1 then some .bytes128 else if b = 2 then some .bytes256
  else if b = 3 then some .bytes512 else none

def commitModeOf (b : Byte) : Option CommitMode :=
  if b = 0 then some .header else if b = 1 then some .tail else none

def lapPolarityOf (b : Byte) : Option LapPolarity :=
  if b = 0 then some .normal else if b = 1 then some .inverted else none

/-- A yes/no, on/off or enable code. -/
def flagOf (b : Byte) : Option Bool :=
  if b = 0 then some false else if b = 1 then some true else none

/-- A target code. -/
def targetOf (b : Byte) : Option Manager :=
  if b = 0 then some .A else if b = 1 then some .B else none

/-- A trigger code. -/
def triggerOf (b : Byte) : Option SourceTrigger :=
  if b = 0 then some .latched else if b = 1 then some .level else none

/-- A hold-off factor: 1, 2 or 4. -/
def factorOf (b : Byte) : Option Nat :=
  if b = 1 then some 1 else if b = 2 then some 2 else if b = 4 then some 4 else none

/-! ### Codes of reply fields (Table 11.3) -/

def flagByte (b : Bool) : Byte := if b then 1 else 0

def roleByte : Role → Byte
  | .request => 0 | .completion => 1 | .pulse => 2

def slotSizeByte : SlotSize → Byte
  | .bytes64 => 0 | .bytes128 => 1 | .bytes256 => 2 | .bytes512 => 3

def commitModeByte : CommitMode → Byte
  | .header => 0 | .tail => 1

def lapPolarityByte : LapPolarity → Byte
  | .normal => 0 | .inverted => 1

def targetByte : Manager → Byte
  | .A => 0 | .B => 1

def triggerByte : SourceTrigger → Byte
  | .latched => 0 | .level => 1

def healthByte : Health → Byte
  | .disabled => 0 | .healthy => 1 | .watch => 2 | .suspect => 3 | .failed => 4 | .quiesced => 5 | .draining => 6

def windowClassByte : Option WindowClass → Byte
  | none => 0 | some .good => 1 | some .bad => 2 | some .idle => 3

def verdictByte : Verdict → Byte
  | .normal => 0 | .holdoff _ => 1 | .fault => 2

def presenceByte : ClockPresence → Byte
  | .running => 0 | .stopped => 1 | .lost => 2

def selectionByte : Selection → Byte
  | .deselected => 0 | .selected => 1 | .broadcast => 2

def errorKindByte : Option ErrorKind → Byte
  | none => 0 | some .character => 1 | some .check => 2 | some .badLen => 3 | some .overrun => 4 | some .gap => 5

/-! ### Byte forms (R172) -/

/-- An optional field: a presence byte and `n` bytes, all 0 when it is absent (R172). -/
def optionalField (n : Nat) : Option Nat → List Byte
  | none => 0 :: leBytes n 0
  | some v => 1 :: leBytes n v

/-- A stamp: 4 bytes of seconds and 2 bytes of tick-of-second (R172). -/
def stampBytes (x : Stamp) : List Byte := leBytes 4 x.seconds.toNat ++ leBytes 2 x.tick

/-- An optional stamp (R172). -/
def optionalStamp : Option Stamp → List Byte
  | none => 0 :: leBytes 6 0
  | some x => 1 :: stampBytes x

/-! ### Range checks and clamps -/

/-- A slot count is a power of two within 2..4096 (Table 3.1). -/
def slotCountOk (n : Nat) : Bool :=
  [2, 4, 8, 16, 32, 64, 128, 256, 512, 1024, 2048, 4096].contains n

end Machine

/-- The structural fields of SET_STREAM, when each is one of its values (R17, third check). -/
def SetStreamOps.structural? (o : SetStreamOps) : Option StreamDesc := do
  let role ← roleOf o.role
  let size ← slotSizeOf o.slotSize
  let mode ← commitModeOf o.commitMode
  let polarity ← lapPolarityOf o.lapPolarity
  let fence ← flagOf o.fence
  if o.base.toNat % 4096 = 0 ∧ slotCountOk o.slotCount.toNat = true
      ∧ o.base.toNat + o.slotCount.toNat * size.bytes ≤ 2 ^ 36 then
    some { StreamDesc.default with
      role := role, base := o.base.toNat, slotSize := size, slotCount := o.slotCount.toNat
      marker := o.marker, commitMode := mode, lapPolarity := polarity, fence := fence }
  else none

/-- The descriptor with the tuning fields of SET_STREAM clamped (R17); the max interval is raised to the min interval
after the other clamps. -/
def SetStreamOps.tuned (o : SetStreamOps) (d : StreamDesc) : StreamDesc :=
  let minI := clampTo 0 16777215 o.minInterval.toNat
  { d with
    reorderSpan := clampTo 1 4 o.reorderSpan.toNat
    silenceLimit := clampTo 0 16777215 o.silenceLimit.toNat
    assemblyLimit := clampTo 10 65535 o.assemblyLimit.toNat
    minInterval := minI
    maxInterval := max (clampTo 1 16777215 o.maxInterval.toNat) minI
    missLimit := clampTo 1 15 o.missLimit.toNat }

/-- Whether a clamp changed a tuning field of SET_STREAM (R17). -/
def SetStreamOps.clamped (o : SetStreamOps) (d : StreamDesc) : Bool :=
  decide (¬ (d.reorderSpan = o.reorderSpan.toNat ∧ d.silenceLimit = o.silenceLimit.toNat
    ∧ d.assemblyLimit = o.assemblyLimit.toNat ∧ d.minInterval = o.minInterval.toNat
    ∧ d.maxInterval = o.maxInterval.toNat ∧ d.missLimit = o.missLimit.toNat))

namespace Machine

/-- The descriptor of a stream as the SET_STREAM operands that would write it (Table 11.8). -/
def StreamDesc.operands (n : StreamIx) (d : StreamDesc) : SetStreamOps :=
  { stream := BitVec.ofNat 8 (n.1 + 1)
    role := roleByte d.role
    base := BitVec.ofNat 40 d.base
    slotSize := slotSizeByte d.slotSize
    slotCount := BitVec.ofNat 16 d.slotCount
    marker := d.marker
    commitMode := commitModeByte d.commitMode
    lapPolarity := lapPolarityByte d.lapPolarity
    reorderSpan := BitVec.ofNat 8 d.reorderSpan
    silenceLimit := BitVec.ofNat 32 d.silenceLimit
    assemblyLimit := BitVec.ofNat 32 d.assemblyLimit
    minInterval := BitVec.ofNat 32 d.minInterval
    maxInterval := BitVec.ofNat 32 d.maxInterval
    missLimit := BitVec.ofNat 8 d.missLimit
    fence := flagByte d.fence }

/-- A stream field of SET_PAIR: 0 is none, 1..16 a stream, any other value none of the field's (R43). -/
def streamFieldOf (b : Byte) : Option (Option StreamIx) :=
  if b.toNat = 0 then some none else (streamOf b.toNat).map some

/-- A stream number as a field of SET_PAIR. -/
def streamFieldByte : Option StreamIx → Byte
  | none => 0
  | some n => BitVec.ofNat 8 (n.1 + 1)

end Machine

/-- The descriptor that SET_PAIR gives, from its checked structural fields, with every tuning field clamped
(R43, R44). -/
def SetPairOps.tuned (o : SetPairOps) (req comp : Option StreamIx) (fetch fence : Bool) : PairDesc :=
  { requestStream := req
    completionStream := comp
    quota := clampTo 1 2048 o.quota.toNat
    holdLimit := clampTo 0 7 o.holdLimit.toNat
    gm := clampTo 1 6 o.gm.toNat
    gd := clampTo 1 6 o.gd.toNat
    k := clampTo 1 15 o.k.toNat
    tfloor := clampTo 1 1048575 o.tfloor.toNat
    tceil := clampTo 1 1048575 o.tceil.toNat
    armingCount := clampTo 1 64 o.armingCount.toNat
    window := clampTo 1000 65535 o.window.toNat
    toleranceShift := clampTo 0 15 o.toleranceShift.toNat
    confirmCount := clampTo 1 15 o.confirmCount.toNat
    quiesceLimit := clampTo 100 16777215 o.quiesceLimit.toNat
    expectFetch := fetch
    echoDeadline := clampTo 10 65535 o.echoDeadline.toNat
    fence := fence }

/-- Whether a clamp changed a tuning field of SET_PAIR (R44). -/
def SetPairOps.clamped (o : SetPairOps) (d : PairDesc) : Bool :=
  decide (¬ (d.quota = o.quota.toNat ∧ d.holdLimit = o.holdLimit.toNat ∧ d.gm = o.gm.toNat
    ∧ d.gd = o.gd.toNat ∧ d.k = o.k.toNat ∧ d.tfloor = o.tfloor.toNat ∧ d.tceil = o.tceil.toNat
    ∧ d.armingCount = o.armingCount.toNat ∧ d.window = o.window.toNat
    ∧ d.toleranceShift = o.toleranceShift.toNat ∧ d.confirmCount = o.confirmCount.toNat
    ∧ d.quiesceLimit = o.quiesceLimit.toNat ∧ d.echoDeadline = o.echoDeadline.toNat))

namespace Machine

/-- The descriptor of a pair as the SET_PAIR operands that would write it (Table 11.8). -/
def PairDesc.operands (p : PairIx) (d : PairDesc) : SetPairOps :=
  { pair := BitVec.ofNat 8 (p.1 + 1)
    requestStream := streamFieldByte d.requestStream
    completionStream := streamFieldByte d.completionStream
    quota := BitVec.ofNat 16 d.quota
    holdLimit := BitVec.ofNat 8 d.holdLimit
    gm := BitVec.ofNat 8 d.gm
    gd := BitVec.ofNat 8 d.gd
    k := BitVec.ofNat 8 d.k
    tfloor := BitVec.ofNat 32 d.tfloor
    tceil := BitVec.ofNat 32 d.tceil
    armingCount := BitVec.ofNat 8 d.armingCount
    window := BitVec.ofNat 32 d.window
    toleranceShift := BitVec.ofNat 8 d.toleranceShift
    confirmCount := BitVec.ofNat 8 d.confirmCount
    quiesceLimit := BitVec.ofNat 32 d.quiesceLimit
    expectFetch := flagByte d.expectFetch
    echoDeadline := BitVec.ofNat 32 d.echoDeadline
    fence := flagByte d.fence }

end Machine

/-- The settings that SET_VERDICT gives, from its checked structural fields, with every tuning field clamped (R129). -/
def SetVerdictOps.tuned (o : SetVerdictOps) (fenceOnLoss alarm : Bool) (factor : Nat) : VerdictSettings :=
  { channelLossLimit := clampTo 0 65535 o.channelLossLimit.toNat
    fenceOnLoss := fenceOnLoss
    alarmDrive := alarm
    holdoffFactor := factor
    releaseSettle := clampTo 1 65535 o.releaseSettle.toNat
    holdoffLimit := clampTo 0 16777215 o.holdoffLimit.toNat }

/-- Whether a clamp changed a tuning field of SET_VERDICT (R129). -/
def SetVerdictOps.clamped (o : SetVerdictOps) (v : VerdictSettings) : Bool :=
  decide (¬ (v.channelLossLimit = o.channelLossLimit.toNat ∧ v.releaseSettle = o.releaseSettle.toNat
    ∧ v.holdoffLimit = o.holdoffLimit.toNat))

namespace Machine

/-- The verdict settings as the SET_VERDICT operands that would write them (Table 11.8). -/
def VerdictSettings.operands (v : VerdictSettings) : SetVerdictOps :=
  { channelLossLimit := BitVec.ofNat 32 v.channelLossLimit
    fenceOnLoss := flagByte v.fenceOnLoss
    alarmDrive := flagByte v.alarmDrive
    holdoffFactor := BitVec.ofNat 8 v.holdoffFactor
    releaseSettle := BitVec.ofNat 32 v.releaseSettle
    holdoffLimit := BitVec.ofNat 32 v.holdoffLimit }

/-- OK, or CLAMPED when a field was clamped. -/
def takenStatus (clamped : Bool) : Status := if clamped then .clamped else .ok

end Machine

end Sys2Proof
end

