-- ==== Sys2Proof/Machine/Flags.lean ====
section
/-!
DEFINITION. What the part's state shows on its lines and in its summaries, each computed from the state that owns it:
standing conditions (R148), claimability and winners (R149), the attention lines (R150), BFLT and CALM_N (R133), PREQ
(R14), TXE (R162, R164), TXD (R164, R171), whether channel loss stands (R132), arming and the base of an estimator (R79, R80).
-/

namespace Sys2Proof.Machine

/-! ### Incident sources -/

/-- The health states that hold a pair source's standing condition (R148). -/
def Health.standing : Health → Bool
  | .watch | .suspect | .failed => true
  | .disabled | .healthy | .quiesced | .draining => false

/-- The standing condition of a source (Table 9.1, R148), read from the block that owns it. -/
def standing (s : State) (i : SourceIx) : Bool :=
  match streamOf (i.1 + 1) with
  | some n => (s.stream n).silent || decide (1 ≤ (s.stream n).pulse.missCount)
  | none =>
    match pairNumbered (i.1 - 15) with
    | some p => (s.pair p).health.standing || (s.pair p).hev.promotionPending
    | none =>
      if i = echoSource then decide (s.echo.entries.length = Config.echoListSize)
      else if i = commitSource then decide (s.commitQueue.length = Config.commitQueueSize)
      else decide (s.vrd.verdict ≠ .normal)

/-- A source is claimable for a target (R149). -/
def Source.claimable (x : Source) (m : Manager) (threshold : Nat) : Bool :=
  x.pending && x.enable && decide (x.target = m) && decide (threshold < x.priority)

/-- Source i is claimable for target m (R149). -/
def claimable (s : State) (m : Manager) (i : SourceIx) : Bool :=
  (s.source i).claimable m (s.iar.threshold m)

/-- The better of two candidates: the one of higher priority, and of equal priorities the one already held, which has
the lower ID (R149). -/
def betterSource (s : State) (m : Manager) (best : Option SourceIx) (i : SourceIx) : Option SourceIx :=
  if claimable s m i then
    match best with
    | none => some i
    | some b => if (s.source b).priority < (s.source i).priority then some i else some b
  else best

/-- The winner for a target; none is the winner 0 of R149. -/
def winner (s : State) (m : Manager) : Option SourceIx :=
  allSources.foldl (betterSource s m) none

/-- The ID of the winner, 0 when there is none (R149). -/
def winnerId (s : State) (m : Manager) : Nat :=
  match winner s m with
  | none => 0
  | some i => i.1 + 1

/-- ATTA_N or ATTB_N is driven low (R150). -/
def attentionLow (s : State) (m : Manager) : Bool := (winner s m).isSome

/-! ### Verdict lines -/

/-- BFLT is asserted exactly while the verdict is FAULT (R133). -/
def bflt (s : State) : Bool := decide (s.vrd.verdict = .fault)

/-- The part drives CALM_N low exactly while the verdict is FAULT and alarm drive is on (R133). -/
def drivingCalm (s : State) : Bool := decide (s.vrd.verdict = .fault) && s.vrd.settings.alarmDrive

/-- Channel loss stands exactly while the clock presence monitor is LOST (R10, R11, R132). -/
def lossStands (s : State) : Bool := decide (s.tap.presence = .lost)

/-- Promotion is deferred while the verdict is HOLDOFF with the limit-passed flag clear (R138). -/
def promotionDeferred (s : State) : Bool :=
  match s.vrd.verdict with
  | .holdoff h => !h.limitPassed
  | _ => false

/-- A trigger is in the standing-trigger set (R131). -/
def TriggerSet.has (t : TriggerSet) : Trigger → Bool
  | .pair p => t.pairs.getLsbD p.1
  | .stream n => t.streams.getLsbD n.1
  | .channelLoss => t.channelLoss

/-- The standing-trigger set has no member. -/
def TriggerSet.isEmpty (t : TriggerSet) : Bool :=
  decide (t.pairs = 0) && decide (t.streams = 0) && !t.channelLoss

/-- The high-run time: 0 while the high-run start is absent (R136). -/
def HoldOff.highRun (h : HoldOff) (now : Clock) : Nat :=
  match h.highRunStart with
  | none => 0
  | some t => elapsed now t

/-! ### Probe port and links -/

/-- PREQ is asserted in REQUESTING and READING (R14). -/
def preq (s : State) : Bool :=
  decide (s.tap.port.phase = .requesting) || decide (s.tap.port.phase = .reading)

/-- TXE is asserted while the link sends a reply or finishes a character of one (R162, R164). -/
def Link.txe (l : Link) : Bool := decide (l.tx ≠ .idle)

/-- The levels of TXD over the bit times of the reply being sent, its characters back to back (R164, R171): empty when no reply
is being sent. -/
def Link.txd (l : Link) : List Bool :=
  match l.tx with
  | .sending chars => chars.flatMap LinkChar.bits
  | .idle | .finishing => []

/-! ### Estimator (R79, R80) -/

/-- A pair is arming while its n is below its arming count (R79). -/
def arming (d : PairDesc) (e : Estimator) : Bool := decide (e.n < d.armingCount)

/-- The base: M16 + k × D16, divided by 16 and rounded up (R80, step 1). -/
def estimateBase (d : PairDesc) (e : Estimator) : Nat := (e.m16 + d.k * e.d16 + 15) / 16

/-- The clamped base: raised to Tfloor, lowered to Tceil (R80, step 2). -/
def clampedBase (d : PairDesc) (e : Estimator) : Nat := clampTo d.tfloor d.tceil (estimateBase d e)

/-- The timeout T of a pair with the hold-off factor F (R80). -/
def timeoutOf (d : PairDesc) (e : Estimator) (factor : Nat) : Nat :=
  if arming d e then d.tceil * factor else clampedBase d e * factor

/-! ### Counts of the tables -/

/-- The entries of one pair (R49). -/
def Pair.entryCount (q : Pair) : Nat := q.openList.length + q.lateList.length

/-- The entries of the pool in use (R48). -/
def entriesInUse (s : State) : Nat :=
  allPairs.foldl (fun a p => a + (s.pair p).entryCount) 0

/-- The PROBING entry of the echo list, the PRB's current entry (R119). -/
def currentEntry (s : State) : Option EchoEntry :=
  s.echo.entries.find? fun e => decide (e.status = .probing)

/-- The number of QUEUED entries (R116). -/
def queuedCount (s : State) : Nat :=
  (s.echo.entries.filter fun e => decide (e.status = .queued)).length

end Sys2Proof.Machine
end

