-- ==== Sys2Proof/Machine/Estimator.lean ====
section
/-!
DEFINITION. The Time Base and the Latency Estimator (section 5), and the examination of the Pairing Table's list heads
that a change of T brings with it (R62, R63, R64, R83).
-/

namespace Sys2Proof.Machine

/-! ### The clocks -/

/-- The stamp clock one tick later (R72). -/
def Stamp.next (x : Stamp) : Stamp :=
  if x.tick + 1 ≤ 9999 then { x with tick := x.tick + 1 } else { seconds := x.seconds + 1, tick := 0 }

/-! ### Expiry and loss -/

/-- The age of an entry (section 4.7). -/
def Entry.age (now : Clock) (e : Entry) : Nat := elapsed now e.arrival

/-- The time a late entry has spent on the late list (R63). -/
def LateEntry.time (now : Clock) (e : LateEntry) : Nat := elapsed now e.lateSince

/-- When the last entry of a DRAINING pair leaves its lists, the pair becomes DISABLED (R47). -/
def settleDraining (p : PairIx) (s : State) : State :=
  if (s.pair p).health = .draining ∧ (s.pair p).openList = [] ∧ (s.pair p).lateList = [] then
    s.modPair p fun q => { q with health := .disabled }
  else s

/-- The findings of one expired entry (R62, steps 2 and 3). -/
def expiryFinding (p : PairIx) (s : State) (e : Entry) : State :=
  expiryEvent p
    (if (s.pair p).health = .quiesced then s
     else post (pairSource p) (if e.pickup.isSome then .expiredTouched else .expiredUntouched) s)

/-- The findings of one lost entry (R63, steps 3 and 4). -/
def lossFinding (p : PairIx) (s : State) (_e : LateEntry) : State :=
  expiryEvent p (post (pairSource p) .lost s)

/-- The head of an enabled or DRAINING pair's open list is examined against T: it expires when its age is at or above T,
and each new head in turn (R62). -/
def examineOpen (p : PairIx) (s : State) : State :=
  let q := s.pair p
  if q.health.active then
    let due := q.openList.takeWhile fun e => decide (q.timeout ≤ e.age s.clock)
    let rest := q.openList.dropWhile fun e => decide (q.timeout ≤ e.age s.clock)
    due.foldl (expiryFinding p)
      (s.modPair p fun q =>
        { q with openList := rest, lateList := q.lateList ++ due.map fun e => ⟨e, s.clock⟩ })
  else s

/-- The head of an enabled or DRAINING pair's late list is examined against T: it is lost when it has been on the list
for T or more, and each new head in turn (R63). -/
def examineLate (p : PairIx) (s : State) : State :=
  let q := s.pair p
  if q.health.active then
    let due := q.lateList.takeWhile fun e => decide (q.timeout ≤ e.time s.clock)
    let rest := q.lateList.dropWhile fun e => decide (q.timeout ≤ e.time s.clock)
    settleDraining p
      (due.foldl (lossFinding p)
        (s.modPair p fun q =>
          { q with
            lateList := rest
            counters := { q.counters with lost := q.counters.lost + BitVec.ofNat 32 due.length } }))
  else s

/-- Both heads of a pair examined (R64). -/
def examineBoth (p : PairIx) (s : State) : State := examineLate p (examineOpen p s)

/-! ### The timeout -/

/-- T of one pair recomputed; a T different from the one it had is handed to the COR, which examines both heads
(R80, R82, R83). -/
def recomputeT (p : PairIx) (s : State) : State :=
  let q := s.pair p
  let t := timeoutOf q.desc q.est s.vrd.factor
  if t = q.timeout then s else examineBoth p (s.modPair p fun q => { q with timeout := t })

/-- A new hold-off factor F: T of every pair is recomputed (R81). -/
def setFactor (f : Nat) (s : State) : State :=
  allPairs.foldl (fun s p => recomputeT p s) (s.modVrd fun v => { v with factor := f })

/-! ### Samples -/

/-- The estimator after a clamped sample L: seeded by the first (R77), moved by each later one with quotients rounded
toward zero (R78). -/
def Estimator.update (d : PairDesc) (e : Estimator) (l : Nat) : Estimator :=
  let s16 : Int := (l * 16 : Nat)
  if e.n = 0 then
    { m16 := l * 16, d16 := l * 16 / 2, n := 1, lastSample := some l }
  else
    let err : Int := s16 - e.m16
    let derr : Int := (err.natAbs : Int) - e.d16
    { m16 := ((e.m16 : Int) + err.tdiv (2 ^ d.gm)).toNat
      d16 := ((e.d16 : Int) + derr.tdiv (2 ^ d.gd)).toNat
      n := min (e.n + 1) 255
      lastSample := some l }

/-- A latency sample taken for a pair: clamped, recorded, and T recomputed (R76, R83). -/
def takeSample (p : PairIx) (l : Nat) (s : State) : State :=
  recomputeT p (s.modPair p fun q =>
    { q with est := q.est.update q.desc (min l Config.sampleCeiling) })

end Sys2Proof.Machine
end

