-- ==== Sys2Proof/Machine/Verdict.lean ====
section
/-!
DEFINITION. The Verdict Unit's shared operations (section 8) with the promotion of pairs (R94, R95): fence triggers
joining and leaving the standing-trigger set, the entry to FAULT, the hold-off and its end, and channel loss.
-/

namespace Sys2Proof.Machine

/-- The set with a member added (R131). -/
def TriggerSet.insert (t : TriggerSet) : Trigger → TriggerSet
  | .pair p => { t with pairs := t.pairs ||| BitVec.ofNat 8 (2 ^ p.1) }
  | .stream n => { t with streams := t.streams ||| BitVec.ofNat 16 (2 ^ n.1) }
  | .channelLoss => { t with channelLoss := true }

/-- The set with a member removed (R131). -/
def TriggerSet.remove (t : TriggerSet) : Trigger → TriggerSet
  | .pair p => { t with pairs := t.pairs &&& ~~~(BitVec.ofNat 8 (2 ^ p.1)) }
  | .stream n => { t with streams := t.streams &&& ~~~(BitVec.ofNat 16 (2 ^ n.1)) }
  | .channelLoss => { t with channelLoss := false }

/-- A trigger ceases to stand; the verdict state is unchanged (R131). -/
def leaveTrigger (m : Trigger) (s : State) : State :=
  s.modVrd fun v => { v with triggers := v.triggers.remove m }

/-- A trigger joins the set while the verdict is FAULT: the set gains the member and the trigger count rises (R131). -/
def joinInFault (m : Trigger) (s : State) : State :=
  if s.vrd.triggers.has m then s
  else s.modVrd fun v =>
    { v with triggers := v.triggers.insert m, counters := { v.counters with triggers := satInc v.counters.triggers } }

/-- A pair becomes FAILED: confirm counter 0 and flag clear, FAILED posted, failure count raised (R94). -/
def markFailed (p : PairIx) (s : State) : State :=
  post (pairSource p) .failed (s.modPair p fun q =>
    { q with
      health := .failed
      hev := { q.hev with
        confirm := 0, promotionPending := false
        counters := { q.hev.counters with failures := satInc q.hev.counters.failures } } })

/-- A pending pair promoted while the verdict is FAULT already (R95, R133). -/
def failInFault (p : PairIx) (s : State) : State :=
  if (s.pair p).desc.fence then joinInFault (.pair p) (markFailed p s) else markFailed p s

/-- Every pending pair promoted at the entry to FAULT (R95, R133). -/
def promoteInFault (s : State) : State :=
  allPairs.foldl (fun s p => if (s.pair p).hev.promotionPending then failInFault p s else s) s

/-- The entry to FAULT by a trigger that joins the set (R133). -/
def enterFault (m : Trigger) (s : State) : State :=
  let s1 := post boardSource .boardFault (s.modVrd fun v =>
    { v with
      verdict := .fault
      triggers := v.triggers.insert m
      origin := some { trigger := m, clock := s.clock, stamp := s.stamp }
      counters := { v.counters with faults := satInc v.counters.faults } })
  match s.vrd.verdict with
  | .holdoff _ => promoteInFault (setFactor 1 s1)
  | _ => s1

/-- A trigger begins to stand: it joins the set, at most once, and moves NORMAL and HOLDOFF to FAULT (R131). -/
def joinTrigger (m : Trigger) (s : State) : State :=
  if s.vrd.triggers.has m then s
  else if s.vrd.verdict = .fault then joinInFault m s
  else enterFault m s

/-- A pair promoted to FAILED, with its fence trigger (R94, R96). -/
def failPair (p : PairIx) (s : State) : State :=
  if (s.pair p).desc.fence then joinTrigger (.pair p) (markFailed p s) else markFailed p s

/-- The pending pairs in the order of their promotion: with several, which is first is left open (R133;
notes/assumptions/30). -/
def promotionOrder (s : State) : List PairIx :=
  match allPairs.filter fun p => (s.pair p).hev.promotionPending with
  | [] => []
  | [p] => [p]
  | l => l.rotate (Config.firstPromoted s.vrd.counters.limitPasses.toNat s.clock)

/-- Every pending pair promoted when the hold-off limit passes (R95, R137). -/
def promotePending (s : State) : State :=
  (promotionOrder s).foldl (fun s p => if (s.pair p).hev.promotionPending then failPair p s else s) s

/-- The hold-off is released: NORMAL, its state cleared, F becomes 1 (R136). -/
def releaseHoldoff (s : State) : State :=
  setFactor 1 (s.modVrd fun v => { v with verdict := .normal })

/-- The hold-off limit passes (R137). -/
def passLimit (h : HoldOff) (s : State) : State :=
  promotePending (post boardSource .holdoffLimit (s.modVrd fun v =>
    { v with
      verdict := .holdoff { h with limitPassed := true }
      counters := { v.counters with limitPasses := satInc v.counters.limitPasses } }))

/-- The entry to HOLDOFF (R135). -/
def enterHoldoff (s : State) : State :=
  setFactor s.vrd.settings.holdoffFactor (post boardSource .holdoffEntered (s.modVrd fun v =>
    { v with
      verdict := .holdoff { entryTime := s.clock, highRunStart := none, limitPassed := false }
      counters := { v.counters with holdoffs := satInc v.counters.holdoffs } }))

/-- The hold-off has reached the release settle (R136). -/
def releaseDue (s : State) (h : HoldOff) : Bool :=
  h.highRunStart.isSome && decide (s.vrd.settings.releaseSettle ≤ h.highRun s.clock)

/-- The hold-off has reached a nonzero hold-off limit with the flag clear (R137). -/
def limitDue (s : State) (h : HoldOff) : Bool :=
  !h.limitPassed && decide (s.vrd.settings.holdoffLimit ≠ 0)
    && decide (s.vrd.settings.holdoffLimit ≤ elapsed s.clock h.entryTime)

/-- The monitor's comparison finds the absence count at a nonzero channel-loss limit (R10). -/
def lossDue (s : State) : Bool :=
  decide (s.tap.presence = .stopped) && decide (s.vrd.settings.channelLossLimit ≠ 0)
    && decide (s.vrd.settings.channelLossLimit ≤ s.tap.absence)

/-- The monitor enters LOST and the VRD takes the report: CHANNEL_LOST posted, the loss counted, and with
fence-on-loss on the channel-loss trigger joins the set (R10, R132). -/
def enterLost (s : State) : State :=
  let s1 := post boardSource .channelLost
    ((s.modTap fun t => { t with presence := .lost }).modVrd fun v =>
      { v with counters := { v.counters with channelLosses := satInc v.counters.channelLosses } })
  if s.vrd.settings.fenceOnLoss then joinTrigger .channelLoss s1 else s1

end Sys2Proof.Machine
end

