-- ==== Sys2Proof/Machine/Health.lean ====
section
/-!
DEFINITION. The Health Evaluator's shared operations (section 6): the classification of windows, the history and the
health states, quiesce and resume, and pulse supervision.
-/

namespace Sys2Proof.Machine

/-! ### Windows and health -/

/-- The class of an ended window (R91). -/
def classify (q : Pair) (w : EvalWindow) : WindowClass :=
  if q.health = .quiesced ∨ w.taint = true then .idle
  else if w.paired.toNat / 2 ^ q.desc.toleranceShift < w.adverse.toNat then .bad
  else if 0 < w.paired.toNat then .good
  else .idle

/-- A sample joins the history at its tail; of four the oldest leaves (R92). -/
def pushHistory (h : List Bool) (bad : Bool) : List Bool :=
  let h' := h ++ [bad]
  h'.drop (h'.length - 3)

/-- The number of BAD samples in a history (R93). -/
def badSamples (h : List Bool) : Nat := (h.filter id).length

/-- The counter of Table 6.3 that a class raises (R91, R101). -/
def HealthCounters.countClass (c : HealthCounters) : WindowClass → HealthCounters
  | .good => { c with good := satInc c.good }
  | .bad => { c with bad := satInc c.bad }
  | .idle => { c with idle := satInc c.idle }

/-- A pair taken to HEALTHY or WATCH by its history: confirm counter 0 and flag clear (R93). -/
def Pair.settledTo (h : Health) (q : Pair) : Pair :=
  { q with health := h, hev := { q.hev with confirm := 0, promotionPending := false } }

/-- A pair's entry to SUSPECT: counter 0, SUSPECT posted, suspect count raised (R93). -/
def enterSuspect (p : PairIx) (s : State) : State :=
  post (pairSource p) .suspect (s.modPair p fun q =>
    { q with
      health := .suspect
      hev := { q.hev with
        confirm := 0, promotionPending := false
        counters := { q.hev.counters with suspects := satInc q.hev.counters.suspects } } })

/-- A promotion held pending while it is deferred: SUSPECT_HELD posted (R94). -/
def holdPromotion (p : PairIx) (s : State) : State :=
  post (pairSource p) .suspectHeld (s.modPair p fun q =>
    { q with hev := { q.hev with promotionPending := true } })

/-- A window sample that leaves the majority of a SUSPECT pair BAD (R94, R95). -/
def suspectSample (p : PairIx) (s : State) : State :=
  if (s.pair p).hev.promotionPending then
    if promotionDeferred s then s else failPair p s
  else
    let s1 := s.modPair p fun q => { q with hev := { q.hev with confirm := q.hev.confirm + 1 } }
    if (s.pair p).desc.confirmCount ≤ (s.pair p).hev.confirm + 1 then
      if promotionDeferred s then holdPromotion p s1 else failPair p s1
    else s1

/-- What a GOOD or BAD sample that has joined the history does to the health (R93, R94, R95). -/
def judgeHealth (p : PairIx) (s : State) : State :=
  let q := s.pair p
  match badSamples q.hev.history with
  | 0 => s.modPair p (Pair.settledTo .healthy)
  | 1 => s.modPair p (Pair.settledTo .watch)
  | _ => if q.health = .suspect then suspectSample p s else enterSuspect p s

/-- Whether a pair's running window has reached its W (R88). -/
def windowDue (s : State) (p : PairIx) : Bool :=
  match (s.pair p).hev.window with
  | some w => (s.pair p).health.enabled && !w.held && decide ((s.pair p).desc.window ≤ elapsed s.clock w.start)
  | none => false

/-- The class of an ended window recorded and counted (R91, R101). -/
def Pair.recordClass (c : WindowClass) (q : Pair) : Pair :=
  { q with hev := { q.hev with lastClass := some c, counters := q.hev.counters.countClass c } }

/-- The class of an ended window handed to the pair's history and health (R88, R92, R96): a GOOD or BAD class of a HEALTHY,
WATCH or SUSPECT pair joins the history and is judged. -/
def judgeWindow (p : PairIx) (c : WindowClass) (s : State) : State :=
  if c ≠ .idle ∧ ((s.pair p).health = .healthy ∨ (s.pair p).health = .watch ∨ (s.pair p).health = .suspect) then
    judgeHealth p (s.modPair p fun q =>
      { q with hev := { q.hev with history := pushHistory q.hev.history (decide (c = .bad)) } })
  else s

/-- The end of a pair's window (R88): its class is recorded, counted and handed to the history and health, and then the next
window starts, so that what the judgement brings about is not counted in it. -/
def endWindow (p : PairIx) (s : State) : State :=
  match (s.pair p).hev.window with
  | none => s
  | some w =>
    let c := classify (s.pair p) w
    (judgeWindow p c (s.modPair p (Pair.recordClass c))).modPair p (Pair.modWindow fun _ => freshWindow s)

/-! ### Quiesce (R98, R99, R100) -/

def Pair.countIgnored (q : Pair) : Pair :=
  { q with hev := { q.hev with counters := { q.hev.counters with ignored := satInc q.hev.counters.ignored } } }

/-- A QUIESCE record (R98). -/
def quiesceRecord (p : PairIx) (commit : Clock) (s : State) : State :=
  let h := (s.pair p).health
  if h = .healthy ∨ h = .watch ∨ h = .suspect then
    s.modPair p fun q =>
      { q with
        health := .quiesced
        hev := { q.hev with
          confirm := 0, promotionPending := false, quiesceStart := some commit
          counters := { q.hev.counters with quiesces := satInc q.hev.counters.quiesces } } }
  else s.modPair p Pair.countIgnored

/-- A pair that leaves QUIESCED for HEALTHY (R99, R100). -/
def Pair.resumed (w : EvalWindow) (q : Pair) : Pair :=
  { q with
    health := .healthy
    hev := { q.hev with
      quiesceStart := none, history := [], confirm := 0, promotionPending := false, window := some w } }

/-- A RESUME record (R99). -/
def resumeRecord (p : PairIx) (s : State) : State :=
  if (s.pair p).health = .quiesced then
    s.modPair p fun q =>
      let q := q.resumed (freshWindow s)
      { q with hev := { q.hev with counters := { q.hev.counters with resumes := satInc q.hev.counters.resumes } } }
  else s.modPair p Pair.countIgnored

/-- Whether a pair's quiesce timer has reached its quiesce limit (R100). -/
def quiesceDue (s : State) (p : PairIx) : Bool :=
  match (s.pair p).hev.quiesceStart with
  | some t =>
    decide ((s.pair p).health = .quiesced) && decide ((s.pair p).desc.quiesceLimit ≤ elapsed s.clock t)
  | none => false

/-- A quiesce overrun (R100). -/
def overrunQuiesce (p : PairIx) (s : State) : State :=
  (post (pairSource p) .quiesceOverrun s).modPair p fun q =>
    let q := q.resumed (freshWindow s)
    { q with hev := { q.hev with counters := { q.hev.counters with overruns := satInc q.hev.counters.overruns } } }

/-! ### Pulse supervision (R104 to R107) -/

/-- A stream's fence trigger stands while its miss count is at or above its miss limit and its fence is yes (R106). -/
def Stream.pulseTrigger (x : Stream) : Bool :=
  x.desc.fence && decide (x.desc.missLimit ≤ x.pulse.missCount)

/-- A PULSE record taken for a stream (R105); a trigger that stood ceases to stand (R106). -/
def pulseRecord (n : StreamIx) (commit : Clock) (s : State) : State :=
  let x := s.stream n
  let early : Bool :=
    match x.pulse.last with
    | some t => decide (elapsed commit t < x.desc.minInterval)
    | none => false
  let s1 := if early then post (streamSource n) .pulseEarly s else s
  leaveTrigger (.stream n) (s1.modStream n fun x =>
    { x with pulse := { x.pulse with
        early := if early then satInc x.pulse.early else x.pulse.early
        pulses := x.pulse.pulses + 1
        missCount := 0
        last := some commit
        timer := .running commit } })

/-- Whether a PULSE stream's interval timer has reached its max interval (R106). -/
def pulseDue (s : State) (n : StreamIx) : Bool :=
  match (s.stream n).pulse.timer with
  | .running t => decide ((s.stream n).desc.maxInterval ≤ elapsed s.clock t)
  | _ => false

/-- A missed interval (R106): at the miss that raises the miss count to the miss limit of a stream with fence yes, the
stream's trigger is handed to the VRD. -/
def missPulse (n : StreamIx) (s : State) : State :=
  let x := s.stream n
  let count := min (x.pulse.missCount + 1) 15
  let s1 := (post (streamSource n) .pulseMissed s).modStream n fun x =>
    { x with pulse := { x.pulse with
        missed := satInc x.pulse.missed
        missCount := count
        timer := .running s.clock
        last := if count = 15 ∧ x.pulse.missCount ≠ 15 then none else x.pulse.last } }
  if x.desc.fence ∧ x.pulse.missCount < x.desc.missLimit ∧ x.desc.missLimit ≤ count then
    joinTrigger (.stream n) s1
  else s1

end Sys2Proof.Machine
end

