-- ==== Sys2Proof/Machine/Probe.lean ====
section
/-!
DEFINITION. The probe port (R14, R15), the Echo Checker (R108 to R118) and the Probe Engine (R119 to R128) as shared
operations, with the address map that the port's bank and row come from (R3).
-/

namespace Sys2Proof.Machine

/-! ### The address map (R3) -/

/-- The line address of a resolved burst, its fields set side by side in the order the AMAP straps select (Table 2.1). -/
def lineAddress (amap : BitVec 2) (b : BankAddr) (row : RowNumber) (line : BitVec 7) : LineAddr :=
  if amap = 0 then (b.rank ++ row ++ b.group ++ b.bank ++ line ++ (0 : BitVec 6) : BitVec 36)
  else if amap = 1 then (b.rank ++ row ++ b.bank ++ b.group ++ line ++ (0 : BitVec 6) : BitVec 36)
  else if amap = 2 then (b.rank ++ b.group ++ b.bank ++ row ++ line ++ (0 : BitVec 6) : BitVec 36)
  else (row ++ b.rank ++ b.group ++ b.bank ++ line ++ (0 : BitVec 6) : BitVec 36)

/-- The bank that a line address lies in (Table 2.1 read backwards). -/
def bankOfAddress (amap : BitVec 2) (a : LineAddr) : BankAddr :=
  if amap = 0 then ⟨a.extractLsb' 34 2, a.extractLsb' 15 2, a.extractLsb' 13 2⟩
  else if amap = 1 then ⟨a.extractLsb' 34 2, a.extractLsb' 13 2, a.extractLsb' 15 2⟩
  else if amap = 2 then ⟨a.extractLsb' 34 2, a.extractLsb' 32 2, a.extractLsb' 30 2⟩
  else ⟨a.extractLsb' 17 2, a.extractLsb' 15 2, a.extractLsb' 13 2⟩

/-- The row that a line address lies in (Table 2.1 read backwards). -/
def rowOfAddress (amap : BitVec 2) (a : LineAddr) : RowNumber :=
  if amap = 0 then a.extractLsb' 17 17
  else if amap = 1 then a.extractLsb' 17 17
  else if amap = 2 then a.extractLsb' 13 17
  else a.extractLsb' 19 17

/-- The line of its row that a line address names. -/
def lineOfAddress (a : LineAddr) : BitVec 7 := a.extractLsb' 6 7

/-- The place of a bank in the open-row table. -/
def bankIndex (b : BankAddr) : Fin 64 :=
  ⟨16 * b.rank.toNat + 4 * b.group.toNat + b.bank.toNat, by
    have h1 := b.rank.isLt; have h2 := b.group.isLt; have h3 := b.bank.isLt; omega⟩

/-- The open-row table's entry for a bank (R2). -/
def Tap.bank (t : Tap) (b : BankAddr) : BankState := t.openRows[(bankIndex b).1]'(bankIndex b).2

/-- The open-row table with one entry set (R2). -/
def Tap.setBank (b : BankAddr) (x : BankState) (t : Tap) : Tap :=
  { t with openRows := vupd t.openRows (bankIndex b) fun _ => x }

/-! ### The probe port (R14, R15) -/

/-- The port takes the line that the PRB hands it: it asserts PREQ when PGNT is low, and holds the line in RELEASING when
PGNT is still high (R14, IDLE). -/
def ProbePort.takeLine (a : LineAddr) (x : ProbePort) : ProbePort :=
  { x with line := some a, phase := if x.pgnt then .releasing else .requesting }

/-- The PRB withdraws a line that the port has taken (R15): PREQ is released and the port is RELEASING with no line. -/
def ProbePort.withdraw (x : ProbePort) : ProbePort :=
  if x.line.isSome ∧ x.phase ≠ .reading then { x with phase := .releasing, line := none } else x

/-- The port has a line to report ABORTED for at a clock stop or the start of a discontinuity (R15). -/
def ProbePort.aborts (x : ProbePort) : Bool := x.line.isSome

/-- The port after an abort: PREQ released, RELEASING, no line (R15). A port without a line keeps its state. -/
def ProbePort.abort (x : ProbePort) : ProbePort :=
  if x.line.isSome then { x with phase := .releasing, line := none } else x

/-- The PRB hands its line to the port as soon as the port is IDLE (R119). -/
def handOver (s : State) : State :=
  match s.echo.prb with
  | .requesting l => if s.tap.port.phase = .idle then s.modPort (ProbePort.takeLine l.address) else s
  | _ => s

/-- The PRB gives up its line in hand (R122): in REQUESTING it withdraws or drops it and is IDLE, in READING it sets the
discard mark. -/
def giveUpLine (s : State) : State :=
  match s.echo.prb with
  | .idle => s
  | .requesting _ => (s.modPort ProbePort.withdraw).modEcho fun e => { e with prb := .idle }
  | .reading l => s.modEcho fun e => { e with prb := .reading { l with discard := true } }

/-- The purpose of the line in hand (R119). -/
def linePurpose (s : State) : Option Purpose :=
  match s.echo.prb with
  | .idle => none
  | .requesting l => some l.purpose
  | .reading l => some l.purpose

/-- The line in hand given up when it is for this purpose (R122). -/
def giveUpIf (k : Purpose) (s : State) : State :=
  if linePurpose s = some k then giveUpLine s else s

/-! ### The echo list (R108 to R118) -/

def EchoEntry.key (e : EchoEntry) : SlotKey := { stream := e.stream, slot := e.slot }

/-- The entry that watches a slot of a stream, if there is one (R108). -/
def findEcho (k : SlotKey) (s : State) : Option EchoEntry :=
  s.echo.entries.find? fun e => decide (e.key = k)

/-- The first place of a list that satisfies a test, changed. -/
def modFirst {α : Type} (t : α → Bool) (f : α → α) : List α → List α
  | [] => []
  | a :: l => if t a then f a :: l else a :: modFirst t f l

/-- An entry changed in its place. -/
def modEntry (e : EchoEntry) (f : EchoEntry → EchoEntry) (s : State) : State :=
  s.modEcho fun x => { x with entries := modFirst (fun y => decide (y = e)) f x.entries }

def countEcho (f : EchoCounters → EchoCounters) (s : State) : State :=
  s.modEcho fun x => { x with counters := f x.counters }

/-- An entry retired: it leaves the list and the probe queue, and if it was PROBING its line in hand is given up
(R108, R116, R122). -/
def retireEntry (e : EchoEntry) (s : State) : State :=
  let s1 := s.modEcho fun x =>
    { x with
      entries := x.entries.erase e
      probeQueue := if e.status = .queued then x.probeQueue.erase e.key else x.probeQueue }
  if e.status = .probing then giveUpIf .currentEntry s1 else s1

/-- A finding of the ECH against a pair: the cause posted, and an adverse event for an enabled pair (R113). -/
def echoFinding (p : PairIx) (c : Cause) (s : State) : State :=
  adverseEvent p (post (pairSource p) c s)

/-- Word k of a line: bytes 4k to 4k + 3, least significant first (R33). -/
def lineWord (d : LineData) (k : Fin 16) : BitVec 32 :=
  (d[4 * k.1 + 3]'(by omega) ++ d[4 * k.1 + 2]'(by omega) ++ d[4 * k.1 + 1]'(by omega)
    ++ d[4 * k.1]'(by omega) : BitVec 32)

/-- The places of the words of a line. -/
def wordPlaces : List (Fin 16) := [0, 1, 2, 3, 4, 5, 6, 7, 8, 9, 10, 11, 12, 13, 14, 15]

/-- The signature contribution of line i of a slot: each word times one more than its index in the slot, summed modulo
2^32 (R33, R111). -/
def contribution (i : Nat) (d : LineData) : BitVec 32 :=
  wordPlaces.foldl (fun a k => a + lineWord d k * BitVec.ofNat 32 (16 * i + k.1 + 1)) 0

/-- The set that holds one line. -/
def lineBit (i : Nat) : LineSet := BitVec.ofNat 8 (2 ^ i)

/-- Line i is in the written mask and not yet in the read mask (R111). -/
def EchoEntry.missing (e : EchoEntry) (i : Nat) : Bool := e.written.getLsbD i && !e.readMask.getLsbD i

/-- The entry with a line's contribution added (R111). -/
def EchoEntry.addLine (i : Nat) (d : LineData) (e : EchoEntry) : EchoEntry :=
  { e with readMask := e.readMask ||| lineBit i, readSum := e.readSum + contribution i d }

/-- The comparison of an entry whose read mask equals its written mask (R112). -/
def compareEntry (e : EchoEntry) (s : State) : State :=
  if e.readMask = e.written then
    let s1 := retireEntry e s
    if e.readSum = e.expected then
      countEcho (fun c => { c with confirmed := satInc c.confirmed }) s1
    else
      echoFinding e.pair .mismatch (countEcho (fun c => { c with mismatched := satInc c.mismatched }) s1)
  else s

/-- A line of an entry has been read: by the adapter (R111) or for the entry by the PRB (R121). -/
def entryRead (e : EchoEntry) (i : Nat) (d : LineData) (s : State) : State :=
  if e.missing i then compareEntry (e.addLine i d) (modEntry e (EchoEntry.addLine i d) s) else s

/-- A line of a slot has been read by the adapter: the entry that watches the slot takes it (R111). -/
def lineRead (k : SlotKey) (i : Nat) (d : LineData) (s : State) : State :=
  match findEcho k s with
  | none => s
  | some e => entryRead e i d s

/-- A write to a watched slot retires its entry OVERTAKEN (R114). -/
def overtake (k : SlotKey) (s : State) : State :=
  match findEcho k s with
  | none => s
  | some e => countEcho (fun c => { c with overtaken := satInc c.overtaken }) (retireEntry e s)

/-- The oldest entry of a full echo list is dropped before an append (R110). -/
def dropOldest (s : State) : State :=
  match s.echo.entries with
  | [] => s
  | e :: _ =>
    if s.echo.entries.length < Config.echoListSize then s
    else post echoSource .echoDropped
      (countEcho (fun c => { c with dropped := satInc c.dropped }) (retireEntry e s))

/-- The address of line 0 of a slot, by the stream descriptor (Table 7.1). -/
def slotBase (d : StreamDesc) (slot : Nat) : LineAddr := BitVec.ofNat 36 (d.base + slot * d.slotSize.bytes)

/-- The ECH is handed a completion record of a pair (R109). -/
def appendEcho (p : PairIx) (r : Record) (s : State) : State :=
  if r.certain = 0 then countEcho (fun c => { c with unwatched := satInc c.unwatched }) s
  else
    (dropOldest s).modEcho fun x => { x with entries := x.entries ++
      [{ pair := p, stream := r.stream, slot := r.slot
         slotBase := slotBase (s.stream r.stream).desc r.slot
         written := r.certain, expected := r.signature, commitTime := r.commitTime
         readMask := 0, readSum := 0, status := .watching }] }

/-! ### The single probe (R123, R124) -/

/-- A BUSY single probe ends and becomes DONE (R124). -/
def endSingle (o : SingleOutcome) (s : State) : State :=
  match s.echo.single with
  | .busy a => s.modEcho fun e => { e with single := .done a o }
  | _ => s

/-! ### The Probe Engine (R119 to R122) -/

/-- The line indices of a slot. -/
def lineIndices : List Nat := [0, 1, 2, 3, 4, 5, 6, 7]

/-- The line that an entry needs next: of lowest index in its written mask and not in its read mask (R119). -/
def EchoEntry.nextLine (e : EchoEntry) : Option Nat := lineIndices.find? e.missing

/-- A line of the current entry taken in hand (R119). -/
def entryLine (s : State) (e : EchoEntry) (i : Nat) : LineInHand :=
  { purpose := .currentEntry, address := e.slotBase + BitVec.ofNat 36 (64 * i), index := i
    takenAt := s.clock, discard := false }

/-- The PRB takes a line in hand and hands it to the port as soon as the port is IDLE (R119). -/
def takeLine (l : LineInHand) (s : State) : State :=
  handOver (s.modEcho fun e => { e with prb := .requesting l })

/-- The head of the probe queue becomes the current entry (R119, step 3). -/
def takeQueueHead (s : State) : State :=
  match s.echo.probeQueue with
  | [] => s
  | k :: rest =>
    s.modEcho fun x =>
      { x with
        probeQueue := rest
        entries := modFirst (fun e => decide (e.key = k ∧ e.status = .queued))
          (fun e => { e with status := .probing }) x.entries }

/-- A line of the current entry, if there is one, taken in hand (R119, step 2). -/
def takeEntryLine (s : State) : State :=
  match currentEntry s with
  | none => s
  | some e =>
    match e.nextLine with
    | none => s
    | some i => takeLine (entryLine s e i) s

/-- An IDLE PRB takes a line in hand as soon as it has one to serve, while BRST_N is not asserted: the single probe's,
the current entry's, or the queue head's (R119). -/
def prbTake (s : State) : State :=
  if s.echo.prb ≠ .idle ∨ s.tap.brstAsserted = true then s
  else
    match s.echo.single with
    | .busy a =>
      takeLine { purpose := .singleProbe, address := a, index := 0, takenAt := s.clock, discard := false } s
    | _ => if (currentEntry s).isSome then takeEntryLine s else takeEntryLine (takeQueueHead s)

/-- A line that starved, by its wait or by a clock stop (R120): the current entry is retired STARVED, or the single probe
ends STARVED. The PRB is IDLE already. -/
def starveLine (l : LineInHand) (s : State) : State :=
  match l.purpose with
  | .singleProbe => endSingle .starved s
  | .currentEntry =>
    match currentEntry s with
    | none => s
    | some e =>
      echoFinding e.pair .starved
        (countEcho (fun c => { c with starved := satInc c.starved }) (retireEntry e s))

/-- The wait of the line in hand has reached the grant wait limit (R120). -/
def waitDue (s : State) : Bool :=
  match s.echo.prb with
  | .requesting l => decide (s.echo.waitLimit ≤ elapsed s.clock l.takenAt)
  | _ => false

/-- The starved line in hand is withdrawn or dropped and ends STARVED (R120). -/
def starveInHand (s : State) : State :=
  match s.echo.prb with
  | .requesting l => starveLine l (giveUpLine s)
  | _ => s

/-- The port reports ABORTED by a clock stop: the line starves, or is dropped when its discard mark is set
(R15, R120, R122). -/
def abortByClock (s : State) : State :=
  if s.tap.port.aborts then
    let s1 := (s.modPort ProbePort.abort).modEcho fun e => { e with prb := .idle }
    match s.echo.prb with
    | .idle => s1
    | .requesting l => starveLine l s1
    | .reading l => if l.discard then s1 else starveLine l s1
  else s

/-- The outcome of the line in hand reaches the PRB (R121): `void` says VOID in place of DATA. -/
def lineOutcome (void : Bool) (d : LineData) (s : State) : State :=
  match s.echo.prb with
  | .reading l =>
    let s1 := s.modEcho fun e => { e with prb := .idle }
    if l.discard then s1
    else
      match l.purpose with
      | .singleProbe => endSingle (if void then .overtaken else .ok d) s1
      | .currentEntry =>
        if void then s1
        else
          match currentEntry s1 with
          | none => s1
          | some e => entryRead e l.index d s1
  | _ => s

/-- The echo deadline of an entry's pair has been reached by a WATCHING entry (R115). -/
def EchoEntry.overdue (s : State) (e : EchoEntry) : Bool :=
  decide (e.status = .watching) && decide ((s.pair e.pair).desc.echoDeadline ≤ elapsed s.clock e.commitTime)

/-- An overdue entry: UNREAD drawn and counted, and the entry retired (OFF) or queued (FETCH_CHECK) (R115, R116). -/
def judgeOverdue (e : EchoEntry) (s : State) : State :=
  let s1 := countEcho (fun c => { c with unread := satInc c.unread }) s
  let s2 :=
    if s.echo.fetchCheck then
      (modEntry e (fun e => { e with status := .queued }) s1).modEcho fun x =>
        { x with probeQueue := x.probeQueue ++ [e.key] }
    else retireEntry e s1
  echoFinding e.pair .unread s2

/-- The switch of the probe mode from FETCH_CHECK to OFF (R118): the queued and probing entries are retired with no new
finding, and a BUSY single probe ends STARVED with its line given up. -/
def switchProbeOff (s : State) : State :=
  let s1 := giveUpIf .currentEntry s
  let s2 := s1.modEcho fun x =>
    { x with entries := x.entries.filter (fun e => decide (e.status = .watching)), probeQueue := [] }
  match s.echo.single with
  | .busy _ => endSingle .starved (giveUpIf .singleProbe s2)
  | _ => s2

/-- The echo entries of a stream taken out of service are retired WITHDRAWN (R126). -/
def withdrawStream (n : StreamIx) (s : State) : State :=
  (s.echo.entries.filter fun e => decide (e.stream = n)).foldl
    (fun s e => countEcho (fun c => { c with withdrawn := satInc c.withdrawn }) (retireEntry e s)) s

/-- The 16-bit saturating counter raised by a number of events. -/
def satAdd (c : BitVec 16) (n : Nat) : BitVec 16 := BitVec.ofNat 16 (min (c.toNat + n) 65535)

/-- The Echo Checker and the Probe Engine at the start of a discontinuity (R128): the list is flushed, the line in hand
is dropped, and a BUSY single probe ends OVERTAKEN. The port's own abort is R15's. -/
def flushEcho (s : State) : State :=
  endSingle .overtaken (s.modEcho fun x =>
    { x with
      entries := [], probeQueue := [], prb := .idle
      counters := { x.counters with flushed := satAdd x.counters.flushed x.entries.length } })

end Sys2Proof.Machine
end

