-- ==== Sys2Proof/Machine/Assembler.lean ====
section
/-!
DEFINITION. The Record Assembler and the Commit Queue (section 3): assemblies, commits, the record checks, the sequence
check, the signature, and acceptance into the queue.
-/

namespace Sys2Proof.Machine

/-! ### Lines of an assembly (R22, R23, R33) -/

/-- The certain-lines set of an assembly (R22). -/
def Assembly.certain (a : Assembly) : LineSet :=
  lineIndices.foldl (fun m i => if (a.lines[i]?).join.isSome then m ||| lineBit i else m) 0

/-- The signature formed from the recorded contributions (R33). -/
def Assembly.signature (a : Assembly) : BitVec 32 :=
  a.lines.toList.foldl (fun acc c => acc + c.getD 0) 0

/-- A new assembly of a slot (R22). -/
def Assembly.fresh (slot : Nat) (now : Clock) : Assembly :=
  { slot := slot, openedAt := now, lines := Vector.replicate 8 none, header := none }

/-- A write applied to line i: a full write makes it certain, a partial write uncertain (R23). -/
def Assembly.writeLine (i : Fin 8) (data : LineData) (mask : ByteMask) (a : Assembly) : Assembly :=
  { a with lines := vupd a.lines i fun _ =>
      if mask = BitVec.allOnes 64 then some (contribution i.1 data) else none }

/-! ### The header (R21, R24, R170) -/

/-- How many of the 16 header bytes a mask enables (R24). -/
inductive HeaderBytes where
  | all
  | none
  | some
deriving DecidableEq, Repr

def headerBytes (mask : ByteMask) : HeaderBytes :=
  let m := mask.extractLsb' 0 16
  if m = 0xFFFF#16 then .all else if m = 0 then .none else .some

/-- The header in the first 16 bytes of a line (Table 11.1). -/
def headerOf (d : LineData) : Header :=
  { marker := (d[1] ++ d[0] : BitVec 16)
    kind := d[2]
    flags := d[3]
    tag := lineWord d 1
    sequence := lineWord d 2
    spare := lineWord d 3 }

/-- The LAP flag of a header (R21). -/
def Header.lap (h : Header) : Bool := h.flags.getLsbD 0

/-- The HOLD flag of a record (R21). -/
def Record.hold (r : Record) : Bool := r.flags.getLsbD 1

/-- The kind that a kind byte names (R21). -/
def kindOf (b : Byte) : Option RecordKind :=
  if b = 1 then some .work else if b = 2 then some .quiesce else if b = 3 then some .resume
  else if b = 4 then some .pulse else none

/-- The kinds valid on each role (Table 3.3). -/
def kindValid : Role → RecordKind → Bool
  | .request, .work => true
  | .completion, .work | .completion, .quiesce | .completion, .resume => true
  | .pulse, .pulse => true
  | _, _ => false

/-- The expected lap of a sequence (R21): true is lap 1. -/
def expectedLap (d : StreamDesc) (sequence : BitVec 32) : Bool :=
  let odd := decide ((sequence.toNat / d.slotCount) % 2 = 1)
  match d.lapPolarity with
  | .normal => odd
  | .inverted => !odd

/-! ### What a write does to a stream's assemblies (R22 to R27) -/

/-- What a write brings about beside the change of the assemblies. -/
inductive WriteResult where
  /-- nothing more -/
  | none
  /-- counted torn, TORN posted -/
  | torn
  /-- counted unassembled, ASSEMBLY_FULL posted -/
  | full
  /-- the assembly, already freed, commits with this header -/
  | commit (a : Assembly) (h : Header)
deriving DecidableEq, Repr

/-- The open assembly of a slot (R22). -/
def findAssembly (slot : Nat) (l : List Assembly) : Option Assembly :=
  l.find? fun a => decide (a.slot = slot)

/-- The assemblies without that of a slot. -/
def freeAssembly (slot : Nat) (l : List Assembly) : List Assembly :=
  l.filter fun a => decide (a.slot ≠ slot)

/-- The assembly of a slot put in its place, or added when the slot has none. -/
def putAssembly (a : Assembly) (l : List Assembly) : List Assembly :=
  if (findAssembly a.slot l).isSome then l.map fun b => if b.slot = a.slot then a else b
  else l ++ [a]

/-- A write applied to an assembly of a slot of two lines or more, the line already changed by R23 in `b`; `old` is the
assembly before it (R24, R25, R26). The first component is what is left open of the slot. -/
def applyWrite (d : StreamDesc) (now : Clock) (i : Nat) (data : LineData) (mask : ByteMask) (old b : Assembly) :
    Option Assembly × WriteResult :=
  if i = 0 then
    match headerBytes mask with
    | .some => (none, .torn)
    | .none => (some b, .none)
    | .all =>
      match d.commitMode with
      | .header => (none, .commit b (headerOf data))
      | .tail =>
        match old.header with
        | none => (some { b with header := some (headerOf data) }, .none)
        | some _ =>
          (some { ((Assembly.fresh old.slot now).writeLine 0 data mask) with header := some (headerOf data) }, .torn)
  else
    match d.commitMode with
    | .header => (some b, .none)
    | .tail =>
      if i + 1 = d.slotSize.lines then
        match old.header with
        | some h => (none, .commit b h)
        | none => (none, .torn)
      else (some b, .none)

/-- A write to a one-line slot (R27). -/
def oneLineWrite (now : Clock) (slot : Nat) (data : LineData) (mask : ByteMask) : WriteResult :=
  match headerBytes mask with
  | .all => .commit ((Assembly.fresh slot now).writeLine 0 data mask) (headerOf data)
  | _ => .torn

/-- A write burst to line i of a slot, applied to the open assemblies of the stream (R22 to R27). -/
def writeAssemblies (d : StreamDesc) (now : Clock) (slot : Nat) (i : Fin 8) (data : LineData) (mask : ByteMask)
    (l : List Assembly) : List Assembly × WriteResult :=
  if mask = 0 then (l, .none)
  else
    match findAssembly slot l with
    | none =>
      if Config.assembliesPerStream ≤ l.length then (l, .full)
      else if d.slotSize.lines = 1 then (l, oneLineWrite now slot data mask)
      else
        let a := Assembly.fresh slot now
        match applyWrite d now i.1 data mask a (a.writeLine i data mask) with
        | (some b, r) => (putAssembly b l, r)
        | (none, r) => (l, r)
    | some a =>
      if d.slotSize.lines = 1 then (freeAssembly slot l, oneLineWrite now slot data mask)
      else
        match applyWrite d now i.1 data mask a (a.writeLine i data mask) with
        | (some b, r) => (putAssembly b l, r)
        | (none, r) => (freeAssembly slot l, r)

/-! ### The sequence check (R32) -/

/-- What the sequence check finds. -/
inductive SeqResult where
  | accepted (next : SeqState)
  | gap (next : SeqState) (size : BitVec 32)
  | stale
deriving DecidableEq, Repr

/-- While place 0 is set, every place moves down by one and next rises by 1; a stream has at most four places. -/
def advancePlaces : Nat → BitVec 32 → BitVec 4 → SeqState
  | 0, next, places => .synchronised next places
  | k + 1, next, places =>
    if places.getLsbD 0 then advancePlaces k (next + 1) (places >>> 1) else .synchronised next places

/-- The sequence check (R32). -/
def checkSequence (span : Nat) (st : SeqState) (sequence : BitVec 32) : SeqResult :=
  match st with
  | .unsynchronised => .accepted (.synchronised (sequence + 1) 0)
  | .synchronised next places =>
    let d := (sequence - next).toNat
    if d < span then
      if places.getLsbD d then .stale
      else .accepted (advancePlaces 4 next (places ||| BitVec.ofNat 4 (2 ^ d)))
    else if d < 2 ^ 31 then .gap (.synchronised (sequence + 1) 0) (sequence - next)
    else .stale

/-! ### Commit (R29, R30, R34, R35, R36) -/

/-- A record dropped by a check (R30). -/
def dropRecord (n : StreamIx) (c : Cause) (s : State) : State :=
  post (streamSource n) c (s.modStream n fun x =>
    { x with counters := { x.counters with dropped := x.counters.dropped + 1 } })

/-- A record offered to the Commit Queue (R36). -/
def offerRecord (r : Record) (s : State) : State :=
  if s.commitQueue.length < Config.commitQueueSize then
    { s.modStream r.stream (fun x => { x with overrunPending := false }) with
      commitQueue := s.commitQueue ++ [{ r with overrun := (s.stream r.stream).overrunPending }] }
  else
    post commitSource .commitOverrun (s.modStream r.stream fun x =>
      { x with overrunPending := true, counters := { x.counters with lost := satInc x.counters.lost } })

/-- A record accepted by the sequence check: the sequence state advances (R32), the stream's accepted count and last
accepted commit time change and its silence ends (R35), and the record is offered to the queue. -/
def acceptRecord (r : Record) (seq : SeqState) (s : State) : State :=
  offerRecord r (s.modStream r.stream fun x =>
    { x with
      seq := seq, lastAccepted := r.commitTime, silent := false
      counters := { x.counters with accepted := x.counters.accepted + 1 } })

/-- The gap of an accepted record counted and posted (R32). -/
def countGap (n : StreamIx) (size : BitVec 32) (s : State) : State :=
  post (streamSource n) .seqGap (s.modStream n fun x =>
    { x with counters := { x.counters with
        gaps := satInc x.counters.gaps, gapTotal := x.counters.gapTotal + size } })

/-- The record of a committed assembly (R34), before its gap and overrun flags are known. -/
def recordOf (n : StreamIx) (now : Clock) (a : Assembly) (h : Header) (k : RecordKind) : Record :=
  { stream := n, slot := a.slot, kind := k, flags := h.flags, tag := h.tag, sequence := h.sequence
    commitTime := now, signature := a.signature, certain := a.certain, gap := none, overrun := false }

/-- A commit: the five checks in their order, the first failing one drops the record (R29). -/
def commitRecord (n : StreamIx) (a : Assembly) (h : Header) (s : State) : State :=
  let x := s.stream n
  if h.marker ≠ x.desc.marker then dropRecord n .markerBad s
  else
    match kindOf h.kind with
    | none => dropRecord n .kindBad s
    | some k =>
      if ¬ kindValid x.desc.role k then dropRecord n .kindBad s
      else if h.sequence.toNat % x.desc.slotCount ≠ a.slot then dropRecord n .slotMismatch s
      else if h.lap ≠ expectedLap x.desc h.sequence then dropRecord n .lapStale s
      else
        match checkSequence x.desc.reorderSpan x.seq h.sequence with
        | .stale => dropRecord n .seqStale s
        | .accepted q => acceptRecord (recordOf n s.clock a h k) q s
        | .gap q g => acceptRecord { recordOf n s.clock a h k with gap := some g } q (countGap n g s)

/-- A classified write reaches the ASM (R22): of a disabled stream it is discarded. -/
def asmWrite (n : StreamIx) (slot : Nat) (i : Fin 8) (data : LineData) (mask : ByteMask) (s : State) : State :=
  if (s.stream n).enabled then
    let res := writeAssemblies (s.stream n).desc s.clock slot i data mask (s.stream n).assemblies
    let s1 := s.modStream n fun x => { x with assemblies := res.1 }
    match res.2 with
    | .none => s1
    | .torn =>
      post (streamSource n) .torn (s1.modStream n fun x =>
        { x with counters := { x.counters with torn := satInc x.counters.torn } })
    | .full =>
      post (streamSource n) .assemblyFull (s1.modStream n fun x =>
        { x with counters := { x.counters with unassembled := satInc x.counters.unassembled } })
    | .commit a h => commitRecord n a h s1
  else s

/-- Whether an open assembly has reached the assembly limit (R28). -/
def abandonDue (s : State) (n : StreamIx) (a : Assembly) : Bool :=
  decide ((s.stream n).desc.assemblyLimit ≤ elapsed s.clock a.openedAt)

/-- Whether a stream has become silent (R38): enabled, a nonzero limit, its condition clear, its timer not held. -/
def silenceDue (s : State) (n : StreamIx) : Bool :=
  let x := s.stream n
  x.enabled && decide (x.desc.silenceLimit ≠ 0) && !x.silent && !s.tap.brstAsserted
    && decide (x.desc.silenceLimit ≤ elapsed s.clock x.lastAccepted)

end Sys2Proof.Machine
end

