-- ==== Sys2Proof/Machine/Table.lean ====
section
/-!
DEFINITION. The Correlator (section 4): the handling of a record taken from the Commit Queue by its stream's role and its
kind (R50), requests (R51 to R53), completions (R54 to R60), and pickup (R61).
-/

namespace Sys2Proof.Machine

/-- The open entry that holds a tag (R52, R54). -/
def Pair.openWith (q : Pair) (tag : BitVec 32) : Option Entry := q.openList.find? fun e => decide (e.tag = tag)

/-- The late entry that holds a tag (R52, R56). -/
def Pair.lateWith (q : Pair) (tag : BitVec 32) : Option LateEntry :=
  q.lateList.find? fun e => decide (e.entry.tag = tag)

/-- The first entry with a tag removed from an open list; the rest keep their order (R49). -/
def removeOpen (tag : BitVec 32) (l : List Entry) : List Entry := l.eraseP fun e => decide (e.tag = tag)

/-- The first entry with a tag removed from a late list; the rest keep their order (R49). -/
def removeLate (tag : BitVec 32) (l : List LateEntry) : List LateEntry := l.eraseP fun e => decide (e.entry.tag = tag)

/-- The head of an open list holds a tag. -/
def openHeadIs (tag : BitVec 32) (l : List Entry) : Bool := (l.head?.map fun e => decide (e.tag = tag)).getD false

/-- The head of a late list holds a tag. -/
def lateHeadIs (tag : BitVec 32) (l : List LateEntry) : Bool :=
  (l.head?.map fun e => decide (e.entry.tag = tag)).getD false

/-- The counters of a pair changed. -/
def countPair (p : PairIx) (f : PairCounters → PairCounters) (s : State) : State :=
  s.modPair p fun q => { q with counters := f q.counters }

/-- The untracked count raised (R47, R51, R53, R66). -/
def addUntracked (p : PairIx) (k : BitVec 32) (s : State) : State :=
  countPair p (fun c => { c with untracked := c.untracked + k }) s

/-! ### Requests -/

/-- The requests that a record shows to have passed unseen (R51). -/
def countUnseen (p : PairIx) (r : Record) (s : State) : State :=
  let s1 := if r.overrun then addUntracked p 1 s else s
  match r.gap with
  | none => s1
  | some g => addUntracked p g s1

/-- An entry after a retry of its request (R52). -/
def Entry.retried (slot : Nat) (e : Entry) : Entry :=
  { e with retryCount := min (e.retryCount + 1) 7, slot := slot }

/-- A retry of a request that the pair holds (R52). -/
def retryRequest (p : PairIx) (r : Record) (s : State) : State :=
  s.modPair p fun q =>
    { q with
      openList := q.openList.map fun e => if e.tag = r.tag then e.retried r.slot else e
      lateList := q.lateList.map fun e =>
        if e.entry.tag = r.tag then { e with entry := e.entry.retried r.slot } else e }

/-- The entry of a new request (R53). -/
def newEntry (r : Record) : Entry :=
  { tag := r.tag, slot := r.slot, arrival := r.commitTime, holdCount := 0, retryCount := 0, pickup := none }

/-- A new request of an enabled pair: stopped by the quota or the pool, or inserted (R53). An entry inserted into an empty
list is the new head and is examined (R62). -/
def insertRequest (p : PairIx) (r : Record) (s : State) : State :=
  let q := s.pair p
  if q.entryCount = q.desc.quota then addUntracked p 1 (post (pairSource p) .quotaFull s)
  else if Config.entryPoolSize ≤ entriesInUse s then addUntracked p 1 (post (pairSource p) .tableFull s)
  else
    let s1 := countPair p (fun c => { c with tracked := c.tracked + 1 })
      (s.modPair p fun q => { q with openList := q.openList ++ [newEntry r] })
    if q.openList = [] then examineOpen p s1 else s1

/-- A request WORK record of an enabled or DRAINING pair (R47, R51, R52, R53). -/
def handleRequest (p : PairIx) (r : Record) (s : State) : State :=
  let s1 := countUnseen p r s
  if ((s.pair p).openWith r.tag).isSome ∨ ((s.pair p).lateWith r.tag).isSome then retryRequest p r s1
  else if (s.pair p).health = .draining then addUntracked p 1 s1
  else insertRequest p r s1

/-! ### Completions -/

/-- A completion with HOLD clear that frees an open entry (R54). The new head is examined against the T that stands, and
the sample is handed to the EST when the COR has finished with the completion (R83; notes/assumptions/8). -/
def completeOpen (p : PairIx) (r : Record) (e : Entry) (s : State) : State :=
  let head := openHeadIs r.tag (s.pair p).openList
  let s1 := pairedEvent p (s.modPair p fun q =>
    { q with
      openList := removeOpen r.tag q.openList
      counters := { q.counters with completed := q.counters.completed + 1 } })
  let s2 := settleDraining p s1
  takeSample p (elapsed r.commitTime e.arrival) (if head then examineOpen p s2 else s2)

/-- An entry re-armed by a HOLD (R55, R57). -/
def Entry.rearmed (commit : Clock) (e : Entry) : Entry :=
  { e with holdCount := e.holdCount + 1, arrival := commit }

/-- A completion with HOLD set that finds its entry in the open list (R55). -/
def holdOpen (p : PairIx) (r : Record) (e : Entry) (s : State) : State :=
  if e.holdCount < (s.pair p).desc.holdLimit then
    let head := openHeadIs r.tag (s.pair p).openList
    let s1 := pairedEvent p (s.modPair p fun q =>
      { q with openList := removeOpen r.tag q.openList ++ [e.rearmed r.commitTime] })
    if head then examineOpen p s1 else s1
  else post (pairSource p) .holdLimit s

/-- A completion with HOLD clear that frees a late entry (R56). -/
def completeLate (p : PairIx) (r : Record) (e : LateEntry) (s : State) : State :=
  let head := lateHeadIs r.tag (s.pair p).lateList
  let s1 := pairedEvent p (post (pairSource p) .late (s.modPair p fun q =>
    { q with
      lateList := removeLate r.tag q.lateList
      counters := { q.counters with late := q.counters.late + 1 } }))
  let s2 := settleDraining p s1
  takeSample p (min (elapsed r.commitTime e.entry.arrival) (s.pair p).desc.tceil)
    (if head then examineLate p s2 else s2)

/-- A completion with HOLD set that finds its entry in the late list (R57). -/
def holdLate (p : PairIx) (r : Record) (e : LateEntry) (s : State) : State :=
  if e.entry.holdCount < (s.pair p).desc.holdLimit then
    let lateHead := lateHeadIs r.tag (s.pair p).lateList
    let s1 := pairedEvent p (s.modPair p fun q =>
      { q with
        lateList := removeLate r.tag q.lateList
        openList := q.openList ++ [e.entry.rearmed r.commitTime] })
    let s2 := if (s.pair p).openList = [] then examineOpen p s1 else s1
    if lateHead then examineLate p s2 else s2
  else post (pairSource p) .holdLimit s

/-- A completion that matches no entry (R58). -/
def orphan (p : PairIx) (s : State) : State :=
  adverseEvent p (post (pairSource p) .orphan
    (countPair p (fun c => { c with orphans := c.orphans + 1 }) s))

/-- A completion WORK record matched against the open list and then the late list (R54 to R58). -/
def matchCompletion (p : PairIx) (r : Record) (s : State) : State :=
  match (s.pair p).openWith r.tag with
  | some e => if r.hold then holdOpen p r e s else completeOpen p r e s
  | none =>
    match (s.pair p).lateWith r.tag with
    | some e => if r.hold then holdLate p r e s else completeLate p r e s
    | none => orphan p s

/-- The taint that a completion-stream record carrying OVERRUN hands to an enabled pair's window (R60, R90). -/
def taintWindow (p : PairIx) (r : Record) (s : State) : State :=
  if r.overrun ∧ (s.pair p).health.enabled then s.modPair p (Pair.modWindow EvalWindow.tainted) else s

/-- A record of a COMPLETION stream of an enabled or DRAINING pair (R50, R59, R60). -/
def handleCompletion (p : PairIx) (r : Record) (s : State) : State :=
  let s1 := taintWindow p r s
  match r.kind with
  | .work =>
    let s2 := matchCompletion p r s1
    if (s.pair p).desc.expectFetch then appendEcho p r s2 else s2
  | .quiesce => quiesceRecord p r.commitTime s1
  | .resume => resumeRecord p s1
  | .pulse => s

/-- The handling of a record by its stream's role, its kind and its pair (R50). -/
def handleRecord (r : Record) (s : State) : State :=
  match (s.stream r.stream).desc.role, r.kind with
  | .pulse, .pulse => pulseRecord r.stream r.commitTime s
  | .request, .work =>
    match s.pairOf r.stream with
    | none => s
    | some p => if (s.pair p).health.active then handleRequest p r s else s
  | .completion, _ =>
    match s.pairOf r.stream with
    | none => s
    | some p => if (s.pair p).health.active then handleCompletion p r s else s
  | _, _ => s

/-! ### Pickup (R61) -/

/-- The last entry of a list, in list order, that names a slot takes the pickup if it has none. -/
def pickupLast (slot : Nat) (now : Clock) (l : List Entry) : List Entry :=
  match l with
  | [] => []
  | e :: rest =>
    if e.slot = slot ∧ rest.all (fun f => decide (f.slot ≠ slot)) then
      { e with pickup := some (e.pickup.getD now) } :: rest
    else e :: pickupLast slot now rest

/-- A read of line 0 of a slot of a REQUEST stream (R61). -/
def pickup (n : StreamIx) (slot : Nat) (s : State) : State :=
  match s.pairOf n with
  | none => s
  | some p =>
    if (s.pair p).health.active then
      s.modPair p fun q => { q with openList := pickupLast slot s.clock q.openList }
    else s

end Sys2Proof.Machine
end

