-- ==== Sys2Proof/Machine/Channel.lean ====
section
/-!
DEFINITION. The channel side of the Channel Tap (section 2): the commands seen on the channel, the bursts presented from
them and their classification, the channel clock, the board reset input, the discontinuity, and the probe handshake.
-/

namespace Sys2Proof.Machine

/-! ### Presenting and classifying bursts (R4 to R9) -/

/-- The bytes of a line that a burst transfers (R4). -/
def transferred : BurstLength → ByteMask
  | .full => BitVec.allOnes 64
  | .choppedLow => 0x00000000FFFFFFFF#64
  | .choppedHigh => 0xFFFFFFFF00000000#64

/-- Where a line lies: stream, slot and line of the slot (R7). -/
structure Place where
  stream : StreamIx
  slot : Nat
  line : Fin 8
deriving DecidableEq, Repr

/-- A line lies inside a window (R7). -/
def Window.covers (w : Window) (a : LineAddr) : Bool := decide (w.base ≤ a.toNat ∧ a.toNat < w.limit)

/-- The classification of a line against the window lookup; none is OUTSIDE (R7). -/
def classifyLine (lookup : List Window) (a : LineAddr) : Option Place :=
  (lookup.find? fun w => w.covers a).map fun w =>
    let off := a.toNat - w.base
    { stream := w.stream, slot := off / w.slotBytes, line := Fin.ofNat 8 (off % w.slotBytes / 64) }

/-- A burst counted as OUTSIDE (R9). -/
def countOutside (s : State) : State := s.modTap fun t => { t with outsideCount := t.outsideCount + 1 }

/-- A burst counted as unobserved (R9). -/
def countUnobserved (s : State) : State :=
  s.modTap fun t => { t with unobservedCount := satInc t.unobservedCount }

/-- A write burst presented: counted, classified, and handed to the ECH and the ASM (R4, R7, R9, Table 2.2). -/
def presentWrite (a : LineAddr) (data : LineData) (mask : ByteMask) (s : State) : State :=
  let s1 := s.modTap fun t => { t with writeCount := t.writeCount + 1 }
  match classifyLine s.tap.lookup a with
  | none => countOutside s1
  | some x =>
    let s2 :=
      if (s.stream x.stream).desc.role = .completion then
        overtake { stream := x.stream, slot := x.slot } s1
      else s1
    asmWrite x.stream x.slot x.line data mask s2

/-- A read burst presented: counted, classified, and handed to the COR or the ECH (R5, R7, R9, Table 2.2). -/
def presentRead (a : LineAddr) (data : LineData) (s : State) : State :=
  let s1 := s.modTap fun t => { t with readCount := t.readCount + 1 }
  match classifyLine s.tap.lookup a with
  | none => countOutside s1
  | some x =>
    match (s.stream x.stream).desc.role with
    | .request => if x.line = 0 then pickup x.stream x.slot s1 else s1
    | .completion => lineRead { stream := x.stream, slot := x.slot } x.line.1 data s1
    | .pulse => s1

/-- A write completing at the line of a probe in READING sets the void mark (R14). -/
def ProbePort.voidedBy (a : LineAddr) (x : ProbePort) : ProbePort :=
  if x.phase = .reading ∧ x.line = some a then { x with voidMark := true } else x

/-- A burst is presented only when none of its data was captured while BRST_N was judged asserted (R12). -/
def presents (s : State) (duringReset : Bool) : Bool := !s.tap.brstAsserted && !duringReset

/-! ### The discontinuity (R13, R40, R41, R69, R103, R107, R128) -/

/-- A stream at the start of a discontinuity (R40, R107). -/
def Stream.discontinued (x : Stream) : Stream :=
  { x with
    assemblies := [], seq := .unsynchronised, overrunPending := false, silent := false
    pulse := { x.pulse with
      missCount := 0, last := none
      timer := match x.pulse.timer with | .stopped => .stopped | _ => .held } }

/-- A stream at the end of a discontinuity (R41, R107). -/
def Stream.restarted (now : Clock) (x : Stream) : Stream :=
  if x.enabled then
    { x with
      lastAccepted := now
      pulse := { x.pulse with timer := match x.pulse.timer with | .held => .running now | t => t } }
  else x

/-- A window HELD by a discontinuity: counts and taint discarded (R103). -/
def EvalWindow.hold (w : EvalWindow) : EvalWindow :=
  { held := true, start := w.start, paired := 0, adverse := 0, taint := false }

/-- A HELD window that starts afresh at the end of a discontinuity (R103). -/
def EvalWindow.restarted (now : Clock) (w : EvalWindow) : EvalWindow :=
  if w.held then { held := false, start := now, paired := 0, adverse := 0, taint := false } else w

/-- A pair's entries freed and counted discarded (R69). -/
def Pair.discarded (q : Pair) : Pair :=
  { q with
    openList := [], lateList := []
    counters := { q.counters with discarded := q.counters.discarded + BitVec.ofNat 32 q.entryCount } }

/-- A pair at the start of a discontinuity (R69, R103). -/
def Pair.discontinued (q : Pair) : Pair :=
  match q.health with
  | .healthy | .watch | .suspect | .quiesced =>
    { q.discarded with
      health := .healthy
      hev := { q.hev with
        history := [], confirm := 0, promotionPending := false, quiesceStart := none
        window := q.hev.window.map EvalWindow.hold } }
  | .failed => q.discarded.modWindow EvalWindow.hold
  | .draining => { q.discarded with health := .disabled }
  | .disabled => q.discarded

/-- The start of a discontinuity (R13): the TAP counts it, closes the open-row table and aborts the port, and the ASM, COR,
ECH, PRB and HEV drop their threads. -/
def startDiscontinuity (s : State) : State :=
  let s1 := flushEcho s
  { s1 with
    tap := { s1.tap with
      discontinuities := satInc s1.tap.discontinuities
      openRows := Vector.replicate 64 BankState.closed
      port := s1.tap.port.abort }
    streams := vmap Stream.discontinued s1.streams
    commitQueue := []
    pairs := vmap Pair.discontinued s1.pairs
    vrd := { s1.vrd with triggers := { s1.vrd.triggers with streams := 0 } } }

/-- The end of a discontinuity (R13): HELD windows, silence timers and pulse interval timers restart. -/
def endDiscontinuity (s : State) : State :=
  { s with
    streams := vmap (Stream.restarted s.clock) s.streams
    pairs := vmap (Pair.modWindow (EvalWindow.restarted s.clock)) s.pairs }

/-! ### Meanings: commands and bursts on the channel -/

/-- ROW_ACTIVATE (R2). -/
def execRowActivate (bank : BankAddr) (row : RowNumber) (s : State) : Host.Outcome State Fault Refusal :=
  .next (s.modTap (Tap.setBank bank (.openRow row)))

/-- BANK_PRECHARGE (R2). -/
def execBankPrecharge (bank : BankAddr) (s : State) : Host.Outcome State Fault Refusal :=
  .next (s.modTap (Tap.setBank bank .closed))

/-- The 16 banks of a rank (R2). -/
def banksOfRank (rank : BitVec 2) : List BankAddr :=
  ([0, 1, 2, 3] : List (BitVec 2)).flatMap fun g =>
    ([0, 1, 2, 3] : List (BitVec 2)).map fun b => { rank := rank, group := g, bank := b }

/-- RANK_PRECHARGE (R2). -/
def execRankPrecharge (rank : BitVec 2) (s : State) : Host.Outcome State Fault Refusal :=
  .next (s.modTap fun t => (banksOfRank rank).foldl (fun t b => t.setBank b .closed) t)

/-- COLUMN_COMMAND (R2, R3): resolved against the open row, its burst is then in flight; to a CLOSED bank it is counted
unobserved, but not while BRST_N is asserted (R9). With auto-precharge the bank is then CLOSED. -/
def execColumnCommand (bank : BankAddr) (column : BitVec 10) (op : ColumnOp) (length : BurstLength)
    (autoPrecharge : Bool) (s : State) : Host.Outcome State Fault Refusal :=
  let s1 :=
    match s.tap.bank bank with
    | .closed => if s.tap.brstAsserted then s else countUnobserved s
    | .openRow row =>
      let b : InFlight := { line := lineAddress s.straps.amap bank row (column.extractLsb' 3 7), length := length }
      s.modTap fun t =>
        match op with
        | .write => { t with writesInFlight := t.writesInFlight ++ [b] }
        | .read => { t with readsInFlight := t.readsInFlight ++ [b] }
  .next (if autoPrecharge then s1.modTap (Tap.setBank bank .closed) else s1)

/-- WRITE_DATA_COMPLETE (R4): a probe of that line is voided (R14), and the write burst is presented. With no such write in
flight there is no burst. -/
def execWriteDataComplete (which : Nat) (data : LineData) (dataMask : ByteMask) (duringReset : Bool) (s : State) :
    Host.Outcome State Fault Refusal :=
  match s.tap.writesInFlight[which]? with
  | none => .next s
  | some b =>
    let s1 := s.modTap fun t =>
      { t with writesInFlight := t.writesInFlight.eraseIdx which, port := t.port.voidedBy b.line }
    .next (if presents s duringReset then
        prbTake (presentWrite b.line data (dataMask &&& transferred b.length) s1)
      else s1)

/-- READ_DATA_COMPLETE (R5): a whole line is presented, a chopped read is counted as unobserved. With no such read in flight
there is no burst. -/
def execReadDataComplete (which : Nat) (data : LineData) (duringReset : Bool) (s : State) :
    Host.Outcome State Fault Refusal :=
  match s.tap.readsInFlight[which]? with
  | none => .next s
  | some b =>
    let s1 := s.modTap fun t => { t with readsInFlight := t.readsInFlight.eraseIdx which }
    .next (if presents s duringReset then
        if b.length = .full then prbTake (presentRead b.line data s1) else countUnobserved s1
      else s1)

/-! ### Meanings: the probe handshake (R14, R15) -/

/-- PROBE_GRANT: PGNT seen asserted. In REQUESTING the grant is taken and the sequence is placed: the target bank becomes
OPEN with the target row. In every other state nothing is issued (R15, unrequested grant). -/
def execProbeGrant (s : State) : Host.Outcome State Fault Refusal :=
  let s1 := s.modPort fun x => { x with pgnt := true }
  match s.tap.port.phase, s.tap.port.line with
  | .requesting, some a =>
    let b := bankOfAddress s.straps.amap a
    let s2 := (s1.modTap (Tap.setBank b (.openRow (rowOfAddress s.straps.amap a)))).modPort fun x =>
      { x with phase := .reading, voidMark := false, savedBank := s.tap.bank b }
    .next (s2.modEcho fun e =>
      { e with prb := match e.prb with | .requesting l => .reading l | x => x })
  | _, _ => .next s1

/-- PROBE_DATA_RETURN (R14): the bank is restored, the outcome and the data are handed to the PRB (R121), PREQ is released and
the port enters RELEASING. Data of an abandoned read, or data that no read waits for, is discarded (R15). -/
def execProbeDataReturn (data : LineData) (abandoned : Bool) (s : State) : Host.Outcome State Fault Refusal :=
  match abandoned, s.tap.port.phase, s.tap.port.line with
  | false, .reading, some a =>
    let s1 := (s.modTap (Tap.setBank (bankOfAddress s.straps.amap a) s.tap.port.savedBank)).modPort fun x =>
      { x with phase := .releasing, line := none }
    .next (prbTake (lineOutcome s.tap.port.voidMark data s1))
  | _, _, _ => .next s

/-- PROBE_GRANT_RELEASED: PGNT seen low. In RELEASING the port enters IDLE, or asserts PREQ for a line already handed to it
(R14); the PRB then hands over a line it holds, or takes one (R119). -/
def execProbeGrantReleased (s : State) : Host.Outcome State Fault Refusal :=
  let s1 := s.modPort fun x => { x with pgnt := false }
  match s.tap.port.phase, s.tap.port.line with
  | .releasing, some _ => .next (s1.modPort fun x => { x with phase := .requesting })
  | .releasing, none => .next (prbTake (handOver (s1.modPort fun x => { x with phase := .idle, voidMark := false })))
  | _, _ => .next s1

/-! ### Meanings: the channel clock and the board reset (R10 to R13) -/

/-- CLOCK_STOP (R10): a dead tick in RUNNING; a probe in progress is aborted (R15). -/
def execClockStop (s : State) : Host.Outcome State Fault Refusal :=
  if s.tap.presence = .running then
    .next (prbTake (abortByClock (s.modTap fun t =>
      { t with presence := .stopped, absence := if t.brstAsserted then 0 else 1 })))
  else .next s

/-- CHANNEL_LOSS (R10, R132). -/
def execChannelLoss (s : State) : Host.Outcome State Fault Refusal :=
  .next (if lossDue s then enterLost s else s)

/-- CLOCK_RESUME (R10, R11): a live tick ends STOPPED, with no discontinuity. -/
def execClockResume (s : State) : Host.Outcome State Fault Refusal :=
  .next (if s.tap.presence = .stopped then s.modTap fun t => { t with presence := .running, absence := 0 } else s)

/-- RETURN_AFTER_LOSS (R11, R132): a live tick ends LOST; the channel-loss trigger ceases to stand, and with BRST_N released
an immediate discontinuity is raised. -/
def execReturnAfterLoss (s : State) : Host.Outcome State Fault Refusal :=
  if s.tap.presence = .lost then
    let s1 := leaveTrigger .channelLoss (s.modTap fun t => { t with presence := .running, absence := 0 })
    .next (if s.tap.brstAsserted then s1 else endDiscontinuity (startDiscontinuity s1))
  else .next s

/-- BOARD_RESET_ASSERTED (R12, R13): the held discontinuity starts and observation stops. -/
def execBoardResetAsserted (s : State) : Host.Outcome State Fault Refusal :=
  .next (if s.tap.brstAsserted then s else startDiscontinuity (s.modTap fun t => { t with brstAsserted := true }))

/-- BOARD_RESET_RELEASED (R12, R13): the held discontinuity ends and observation resumes; the PRB may take a line (R119). -/
def execBoardResetReleased (s : State) : Host.Outcome State Fault Refusal :=
  .next (if s.tap.brstAsserted then
    prbTake (endDiscontinuity (s.modTap fun t => { t with brstAsserted := false })) else s)

end Sys2Proof.Machine
end

