-- ==== Sys2Proof/Machine/Timed.lean ====
section
/-!
DEFINITION. The meanings of the events that time, or the part's own queues, bring about: the tick, the timed judgements of
assemblies, streams, entries, windows, quiesce, pulses, echoes and probes, the Correlator's take, and the judgements of
CALM_N and of the hold-off. A judgement of something that is not due finds nothing and changes nothing (R71).
-/

namespace Sys2Proof.Machine

/-- TICK_BOUNDARY (R70, R72): the clocks advance; a tick judged dead raises the absence count of a monitor STOPPED or LOST
while BRST_N is released (R10). The other judgements of the boundary are commands of their own. -/
def execTickBoundary (channelLive : Bool) (s : State) : Host.Outcome State Fault Refusal :=
  .next
    { s with
      clock := s.clock + 1
      stamp := s.stamp.next
      tap := if ¬ channelLive ∧ s.tap.presence ≠ .running ∧ ¬ s.tap.brstAsserted then
          { s.tap with absence := min (s.tap.absence + 1) 65535 } else s.tap }

/-- COR_TAKE_RECORD (R37, R50): the head leaves the queue and is handled whole. -/
def execCorTakeRecord (s : State) : Host.Outcome State Fault Refusal :=
  match s.commitQueue with
  | [] => .next s
  | r :: rest => .next (prbTake (handleRecord r { s with commitQueue := rest }))

/-- ASSEMBLY_ABANDON (R28). -/
def execAssemblyAbandon (stream : StreamIx) (slot : Nat) (s : State) : Host.Outcome State Fault Refusal :=
  match findAssembly slot (s.stream stream).assemblies with
  | none => .next s
  | some a =>
    .next (if abandonDue s stream a then
      post (streamSource stream) .abandoned (s.modStream stream fun x =>
        { x with
          assemblies := freeAssembly slot x.assemblies
          counters := { x.counters with abandoned := satInc x.counters.abandoned } })
      else s)

/-- SILENCE (R38). -/
def execSilence (stream : StreamIx) (s : State) : Host.Outcome State Fault Refusal :=
  .next (if silenceDue s stream then
    post (streamSource stream) .silence (s.modStream stream fun x =>
      { x with silent := true, counters := { x.counters with silences := satInc x.counters.silences } })
    else s)

/-- ENTRY_EXPIRY (R62). -/
def execEntryExpiry (pair : PairIx) (s : State) : Host.Outcome State Fault Refusal :=
  .next (examineOpen pair s)

/-- ENTRY_LOSS (R63). -/
def execEntryLoss (pair : PairIx) (s : State) : Host.Outcome State Fault Refusal :=
  .next (examineLate pair s)

/-- WINDOW_END (R88, R91, R93, R94). -/
def execWindowEnd (pair : PairIx) (s : State) : Host.Outcome State Fault Refusal :=
  .next (if windowDue s pair then endWindow pair s else s)

/-- QUIESCE_OVERRUN (R100). -/
def execQuiesceOverrun (pair : PairIx) (s : State) : Host.Outcome State Fault Refusal :=
  .next (if quiesceDue s pair then overrunQuiesce pair s else s)

/-- PULSE_MISSED (R106). -/
def execPulseMissed (stream : StreamIx) (s : State) : Host.Outcome State Fault Refusal :=
  .next (if pulseDue s stream then missPulse stream s else s)

/-- ECHO_OVERDUE (R115): the first overdue WATCHING entry in list order. -/
def execEchoOverdue (s : State) : Host.Outcome State Fault Refusal :=
  match s.echo.entries.find? (EchoEntry.overdue s) with
  | none => .next s
  | some e => .next (prbTake (judgeOverdue e s))

/-- GRANT_WAIT_EXPIRY (R120). -/
def execGrantWaitExpiry (s : State) : Host.Outcome State Fault Refusal :=
  .next (if waitDue s then prbTake (starveInHand s) else s)

/-- The high run after a usable judgement of CALM_N (R136). -/
def HoldOff.judged (now : Clock) (high : Bool) (h : HoldOff) : HoldOff :=
  { h with highRunStart := if high then some (h.highRunStart.getD now) else none }

/-- CALM_N_JUDGEMENT (R134, R135, R136): the level at the pin is low when another monitor drives the line or the part itself
does; it is recorded, and a usable judgement may enter HOLDOFF or act on the high run. -/
def execCalmNJudgement (lineHigh : Bool) (s : State) : Host.Outcome State Fault Refusal :=
  let high := lineHigh && !drivingCalm s
  let s1 := s.modVrd fun v => { v with sensedHigh := high }
  if drivingCalm s then .next s1
  else
    match s.vrd.verdict with
    | .normal =>
      .next (if ¬ high ∧ s.vrd.settings.holdoffLimit ≠ 0 then enterHoldoff s1 else s1)
    | .holdoff h => .next (s1.modVrd fun v => { v with verdict := .holdoff (h.judged s.clock high) })
    | .fault => .next s1

/-- HOLDOFF_RELEASE (R136). -/
def execHoldoffRelease (s : State) : Host.Outcome State Fault Refusal :=
  match s.vrd.verdict with
  | .holdoff h => .next (if releaseDue s h then releaseHoldoff s else s)
  | _ => .next s

/-- HOLDOFF_LIMIT (R137). -/
def execHoldoffLimit (s : State) : Host.Outcome State Fault Refusal :=
  match s.vrd.verdict with
  | .holdoff h => .next (if limitDue s h then passLimit h s else s)
  | _ => .next s

end Sys2Proof.Machine
end

