-- ==== Sys2Proof/Machine/Links.lean ====
section
/-!
DEFINITION. The management links (section 10): the character receiver and its buffer (R157), station selection (R158), the
frame intake (R159 to R161), abandoned frames and replies (R162), the decoding of a frame (R163), the reply (R164), and how an
owner's answer leaves HANDING. A link's characters touch the link alone; the command of a frame is carried out when its own
row is taken.
-/

namespace Sys2Proof.Machine

/-- The selection that an address character's value sets (R158). -/
def selectionOf (stn : BitVec 6) (value : Byte) : Selection :=
  if value = 63 then .broadcast
  else if value.toNat = stn.toNat then .selected
  else .deselected

/-- The intake ready for a new frame, or DESELECTED, by the selection (R158, R159). -/
def readyIntake : Selection → Intake
  | .deselected => .deselected
  | _ => .waiting

/-- A reply for a link whose intake is not HANDING any more, or never was: with the link SELECTED it is to be sent, in
BROADCAST the intake is ready at once, or SKIPPING after an overrun (R160, R163). -/
def Link.answered (r : Reply) (overrun : Bool) (l : Link) : Link :=
  { l with
    lastReply := some r
    intake := match l.selection with
      | .selected => .replying overrun
      | .broadcast => if overrun then .skipping else .waiting
      | .deselected => .deselected }

/-- The transmitter begins the reply of an intake in REPLYING (R164). -/
def Link.beginReply (r : Reply) (l : Link) : Link :=
  match l.intake with
  | .replying _ => { l with tx := .sending r.chars }
  | _ => l

/-- A frame received whole is counted and decoded (R163). -/
def Link.frameWhole (id : Manager) (f : Frame) (l : Link) : Link :=
  let l1 := { l with frameCount := l.frameCount + 1 }
  let code := f.chars.headD 0
  let ops := (f.chars.drop 1).take (f.len - 2)
  match decodeFrame id code ops with
  | .command c => { l1 with intake := .handing c false, dropped := none }
  | .unknown => (l1.answered (Reply.plain .unknown) false).beginReply (Reply.plain .unknown)
  | .length => (l1.answered (Reply.plain .length) false).beginReply (Reply.plain .length)

/-- A frame whose last character has been taken is judged: discarded as damaged, discarded by its sum, or whole
(R160). -/
def Link.frameEnded (id : Manager) (f : Frame) (l : Link) : Link :=
  if f.damaged then { l.countError .character with intake := .waiting }
  else if f.sum ≠ 0 then { l.countError .check with intake := .waiting }
  else l.frameWhole id f

/-- The frame with one more character (R159). -/
def Frame.extend (c : RxChar) (f : Frame) : Frame :=
  { f with
    count := f.count + 1
    sum := f.sum + c.value
    damaged := f.damaged || c.damaged
    chars := f.chars ++ [c.value] }

/-- The frame that a LEN begins (R159). -/
def Frame.start (v : Byte) : Frame :=
  { len := v.toNat, count := 0, sum := v, damaged := false, chars := [] }

/-- A data character or damaged character taken by the intake (Table 10.1). -/
def Link.takeData (id : Manager) (c : RxChar) (l : Link) : Link :=
  match l.intake with
  | .waiting =>
    if c.damaged then { l.countError .character with intake := .skipping }
    else if 2 ≤ c.value.toNat ∧ c.value.toNat ≤ 60 then { l with intake := .receiving (Frame.start c.value) }
    else { l.countError .badLen with intake := .skipping }
  | .receiving f =>
    let f1 := f.extend c
    if f1.count = f1.len then l.frameEnded id f1 else { l with intake := .receiving f1 }
  | .deselected | .skipping | .handing _ _ | .replying _ => l

/-- What an address character abandons before it sets the selection (R162): a damaged frame is counted, and a reply stops
after the character being sent. -/
def Link.abandon (l : Link) : Link :=
  match l.intake with
  | .receiving f => if f.damaged then l.countError .character else l
  | .replying _ => { l with tx := match l.tx with | .sending _ => .finishing | x => x }
  | .deselected | .waiting | .skipping | .handing _ _ => l

/-- An address character taken by the intake (R158). -/
def Link.takeAddress (stn : BitVec 6) (v : Byte) (l : Link) : Link :=
  let sel := selectionOf stn v
  { l.abandon with selection := sel, intake := readyIntake sel }

/-- A character taken by the intake; its completion time is that of the last character (R159, R161). -/
def Link.take (id : Manager) (stn : BitVec 6) (c : RxChar) (l : Link) : Link :=
  let l1 := { l with lastTaken := c.time }
  if c.address then l1.takeAddress stn c.value else l1.takeData id c

/-- The intake waits for an owner to take a command. -/
def Intake.isHanding : Intake → Bool
  | .handing _ _ => true
  | _ => false

/-- The intake takes characters from the buffer in their order, except while it is HANDING (R157). -/
def Link.drain (id : Manager) (stn : BitVec 6) : List RxChar → Link → Link
  | [], l => { l with buffer := [] }
  | c :: rest, l =>
    if l.intake.isHanding then { l with buffer := c :: rest } else Link.drain id stn rest (l.take id stn c)

/-- A character that completes while the buffer holds two is lost (R157, R160). -/
def Link.overrun (l : Link) : Link :=
  match l.intake with
  | .waiting | .receiving _ => { l.countError .overrun with intake := .skipping }
  | .handing c _ => { l with intake := .handing c true }
  | .deselected | .skipping | .replying _ => l

/-- The receiver's judgement of a completed character (R157). -/
def judgeChar (now : Clock) (c : LinkChar) : RxChar :=
  { value := c.data, address := c.isAddress, damaged := c.damaged, time := now }

/-- A character completes on a link (R157): while the link transmits, all but an address character is dropped. -/
def Link.receive (id : Manager) (stn : BitVec 6) (now : Clock) (ch : LinkChar) (l : Link) : Link :=
  let c := judgeChar now ch
  if l.txe ∧ ¬ c.address then l
  else if Config.receiveBufferSize ≤ l.buffer.length then l.overrun
  else Link.drain id stn (l.buffer ++ [c]) l

/-- An owner's answer leaves HANDING (R160, R163, R164): an overrun is counted, the held characters are taken, and a reply
that none of them abandons is begun. -/
def Link.leaveHanding (id : Manager) (stn : BitVec 6) (r : Reply) (overrun : Bool) (l : Link) : Link :=
  let l1 := (if overrun then l.countError .overrun else l).answered r overrun
  (Link.drain id stn l1.buffer l1).beginReply r

/-- The owner's answer to a command reaches its link. A command that the link has not handed on leaves the intake as it is
(notes/assumptions/5). -/
def Link.deliver (id : Manager) (stn : BitVec 6) (cmd : Instr) (r : Reply) (l : Link) : Link :=
  match l.intake with
  | .handing c ov =>
    if c = cmd then l.leaveHanding id stn r ov else { l with lastReply := some r }
  | _ => { l with lastReply := some r }

/-- The command that a reset of the link drops from HANDING; one dropped before stays dropped (R168, notes/assumptions/6). -/
def Link.dropHanded (l : Link) : Option Instr :=
  match l.intake with
  | .handing c _ => some c
  | .deselected | .waiting | .receiving _ | .skipping | .replying _ => l.dropped

/-- The row of a command is void: it was dropped from HANDING before its owner took it, and no frame has been handed on since
(R168, notes/assumptions/6). -/
def Link.voids (cmd : Instr) (l : Link) : Bool := !l.intake.isHanding && decide (l.dropped = some cmd)

/-- The row of a command reaches its owner, which leaves the part in `t`, unless the row is void; then the mark of the drop is
spent and nothing else happens (R168). -/
def unlessVoid (m : Manager) (cmd : Instr) (s t : State) : State :=
  if (s.link m).voids cmd then s.modLink m fun l => { l with dropped := none } else t

/-- A command taken whole by its owner in `s`, with the answer on its way to the link (R163). -/
def answer (m : Manager) (cmd : Instr) (s : State) (out : State × Reply) : State :=
  unlessVoid m cmd s (out.1.modLink m (Link.deliver m out.1.straps.stn cmd out.2))

/-- The gap of a link has exceeded 2 ms (R161). -/
def gapDue (now : Clock) (l : Link) : Bool :=
  decide (Config.gapTicks ≤ elapsed now l.lastTaken)

/-- The gap timeout of a link: a frame in RECEIVING is discarded, SKIPPING ends (R160, R161). -/
def Link.gapTimeout (l : Link) : Link :=
  match l.intake with
  | .receiving _ => { l.countError .gap with intake := .waiting }
  | .skipping => { l with intake := .waiting }
  | .deselected | .waiting | .handing _ _ | .replying _ => l

/-- The reply of a link has been sent (R160, R164, R168). -/
def Link.replyDone (l : Link) : Link :=
  match l.intake with
  | .replying skip =>
    { l with
      tx := .idle
      intake := match l.selection with
        | .deselected => .deselected
        | _ => if skip then .skipping else .waiting }
  | .deselected | .waiting | .receiving _ | .skipping | .handing _ _ => l

/-! ### Meanings -/

/-- ADDRESS_CHARACTER (R157, R158, R162). -/
def execAddressCharacter (link : Manager) (char : LinkChar) (s : State) : Host.Outcome State Fault Refusal :=
  .next (s.modLink link (Link.receive link s.straps.stn s.clock char))

/-- DATA_CHARACTER (R157, R159, R160, R163). -/
def execDataCharacter (link : Manager) (char : LinkChar) (s : State) : Host.Outcome State Fault Refusal :=
  .next (s.modLink link (Link.receive link s.straps.stn s.clock char))

/-- FRAME_GAP_TIMEOUT (R161). -/
def execFrameGapTimeout (link : Manager) (s : State) : Host.Outcome State Fault Refusal :=
  .next (s.modLink link fun l => if gapDue s.clock l then l.gapTimeout else l)

/-- REPLY_COMPLETE (R164). -/
def execReplyComplete (link : Manager) (s : State) : Host.Outcome State Fault Refusal :=
  .next (s.modLink link Link.replyDone)

/-- ABANDONED_REPLY_STOP (R162, R168): TXE is released at the stop bit of the character being sent. -/
def execAbandonedReplyStop (link : Manager) (s : State) : Host.Outcome State Fault Refusal :=
  .next (s.modLink link fun l => if l.tx = .finishing then { l with tx := .idle } else l)

end Sys2Proof.Machine
end

