-- ==== Sys2Proof/Machine/Replies.lean ====
section
/-!
DEFINITION. The reply data of the read commands, at the offsets of Table 11.8 (R175), each from one state.
-/

namespace Sys2Proof.Machine

/-- A counter in the bytes of its width. -/
def b2 (v : BitVec 16) : List Byte := leBytes 2 v.toNat
def b4 (v : BitVec 32) : List Byte := leBytes 4 v.toNat

/-- The next expected sequence, 0 while unsynchronised (R175). -/
def SeqState.nextExpected : SeqState → BitVec 32
  | .unsynchronised => 0
  | .synchronised n _ => n

/-- The span bitmap, empty while unsynchronised (R175). -/
def SeqState.bitmap : SeqState → BitVec 4
  | .unsynchronised => 0
  | .synchronised _ p => p

def SeqState.isSynchronised : SeqState → Bool
  | .unsynchronised => false
  | .synchronised _ _ => true

def StreamCounters.bytes (c : StreamCounters) : List Byte :=
  b4 c.accepted ++ b4 c.dropped ++ b2 c.gaps ++ b4 c.gapTotal ++ b2 c.lost ++ b2 c.torn ++ b2 c.abandoned
    ++ b2 c.unassembled ++ b2 c.silences

/-- The interval reference while the interval timer runs (R104). -/
def PulseTimer.reference : PulseTimer → Option Clock
  | .running t => some t
  | .stopped | .held => none

/-- READ_STREAM (R20, R104, Table 11.8). -/
def readStreamData (s : State) (n : StreamIx) : List Byte :=
  let x := s.stream n
  (x.desc.operands n).toBytes ++ [flagByte x.enabled, flagByte x.seq.isSynchronised]
    ++ b4 x.seq.nextExpected ++ [x.seq.bitmap.setWidth 8, BitVec.ofNat 8 x.assemblies.length]
    ++ [flagByte x.overrunPending, flagByte x.silent] ++ b4 x.lastAccepted ++ x.counters.bytes
    ++ b4 x.pulse.pulses ++ b2 x.pulse.early ++ b2 x.pulse.missed ++ [BitVec.ofNat 8 x.pulse.missCount]
    ++ optionalField 4 (x.pulse.last.map (elapsed s.clock))
    ++ optionalField 4 (x.pulse.timer.reference.map (elapsed s.clock))

def PairCounters.bytes (c : PairCounters) : List Byte :=
  b4 c.tracked ++ b4 c.completed ++ b4 c.late ++ b4 c.lost ++ b4 c.discarded ++ b4 c.orphans ++ b4 c.untracked

/-- The fields of a list head after its presence byte: tag, slot, age, hold count, retry count, time since pickup. -/
def Entry.bytes (now : Clock) (e : Entry) : List Byte :=
  b4 e.tag ++ leBytes 2 e.slot ++ leBytes 4 (e.age now) ++ leBytes 1 e.holdCount ++ leBytes 1 e.retryCount
    ++ optionalField 4 (e.pickup.map (elapsed now))

/-- The open head, optional (Table 11.8). -/
def openHeadBytes (now : Clock) (l : List Entry) : List Byte :=
  match l with
  | [] => leBytes 18 0
  | e :: _ => 1 :: e.bytes now

/-- The late head, optional (Table 11.8). -/
def lateHeadBytes (now : Clock) (l : List LateEntry) : List Byte :=
  match l with
  | [] => leBytes 22 0
  | e :: _ => 1 :: e.entry.bytes now ++ leBytes 4 (e.time now)

/-- The time since a window's start; while the window is HELD a free value (notes/assumptions/4). -/
def windowTime (p : PairIx) (now : Clock) (w : EvalWindow) : Nat :=
  if w.held then (Config.heldWindowElapsed (p.1 + 1) now).toNat else elapsed now w.start

/-- The window state, its elapsed time, its counts and its taint flag (Table 11.8). -/
def windowBytes (p : PairIx) (now : Clock) : Option EvalWindow → List Byte
  | none => leBytes 10 0
  | some w =>
    [if w.held then 2 else 1] ++ leBytes 4 (windowTime p now w) ++ b2 w.paired ++ b2 w.adverse ++ [flagByte w.taint]

/-- The history in three bytes, oldest first (R175). -/
def historyBytes (h : List Bool) : List Byte :=
  ((h.map fun (bad : Bool) => if bad then (2 : Byte) else 1) ++ [0, 0, 0]).take 3

def HealthCounters.bytes (c : HealthCounters) : List Byte :=
  b2 c.good ++ b2 c.bad ++ b2 c.idle ++ b2 c.suspects ++ b2 c.failures ++ b2 c.quiesces ++ b2 c.resumes
    ++ b2 c.overruns ++ b2 c.ignored

/-- The last classification; a DISABLED pair reports none (R101). -/
def Pair.reportedClass (q : Pair) : Option WindowClass :=
  if q.health = .disabled then none else q.hev.lastClass

/-- READ_PAIR (R67, R101, Table 11.8). -/
def readPairData (s : State) (p : PairIx) : List Byte :=
  let q := s.pair p
  (q.desc.operands p).toBytes ++ [healthByte q.health] ++ leBytes 4 q.timeout
    ++ leBytes 2 q.openList.length ++ leBytes 2 q.lateList.length ++ q.counters.bytes
    ++ openHeadBytes s.clock q.openList ++ lateHeadBytes s.clock q.lateList
    ++ windowBytes p s.clock q.hev.window
    ++ [BitVec.ofNat 8 q.hev.history.length] ++ historyBytes q.hev.history
    ++ [windowClassByte q.reportedClass, BitVec.ofNat 8 q.hev.confirm, flagByte q.hev.promotionPending]
    ++ optionalField 4 (q.hev.quiesceStart.map (elapsed s.clock)) ++ q.hev.counters.bytes

/-- READ_ESTIMATE (R84, Table 11.8). -/
def readEstimateData (s : State) (p : PairIx) : List Byte :=
  let q := s.pair p
  [BitVec.ofNat 8 (p.1 + 1)] ++ leBytes 4 q.est.m16 ++ leBytes 4 q.est.d16 ++ [BitVec.ofNat 8 q.est.n]
    ++ optionalField 4 q.est.lastSample ++ [flagByte (arming q.desc q.est)]
    ++ leBytes 4 (estimateBase q.desc q.est) ++ [BitVec.ofNat 8 s.vrd.factor] ++ leBytes 4 q.timeout

/-- READ_SOURCE (R154, Table 11.8). -/
def readSourceData (s : State) (i : SourceIx) : List Byte :=
  let x := s.source i
  [BitVec.ofNat 8 (i.1 + 1), BitVec.ofNat 8 x.priority, flagByte x.enable, targetByte x.target, triggerByte x.trigger]
    ++ [flagByte x.pending] ++ b2 x.causes ++ [x.count] ++ optionalStamp x.firstStamp ++ optionalStamp x.lastStamp
    ++ [flagByte (standing s i), flagByte (claimable s x.target i), BitVec.ofNat 8 (s.iar.threshold x.target)]

/-- CLAIM (R151, Table 11.8): the snapshot of the winner, or of none. -/
def claimData (s : State) (m : Manager) : List Byte :=
  match winner s m with
  | none => leBytes 19 0
  | some i =>
    let x := s.source i
    [BitVec.ofNat 8 (i.1 + 1), BitVec.ofNat 8 x.priority] ++ b2 x.causes ++ [x.count]
      ++ optionalStamp x.firstStamp ++ optionalStamp x.lastStamp

/-- The kind and the number of a fault origin (Tables 11.3 and 11.8). -/
def Trigger.originBytes : Trigger → List Byte
  | .pair p => [1, BitVec.ofNat 8 (p.1 + 1)]
  | .stream n => [2, BitVec.ofNat 8 (n.1 + 1)]
  | .channelLoss => [3, 0]

/-- The fault origin, optional (Table 11.8). -/
def originBytes : Option FaultOrigin → List Byte
  | none => leBytes 13 0
  | some o => 1 :: o.trigger.originBytes ++ b4 o.clock ++ stampBytes o.stamp

/-- The hold-off fields, 0 and clear outside HOLDOFF (R140). -/
def holdoffBytes (now : Clock) : Verdict → List Byte
  | .holdoff h => leBytes 4 (elapsed now h.entryTime) ++ leBytes 4 (h.highRun now) ++ [flagByte h.limitPassed]
  | .normal | .fault => leBytes 9 0

def VerdictCounters.bytes (c : VerdictCounters) : List Byte :=
  b2 c.faults ++ b2 c.triggers ++ b2 c.holdoffs ++ b2 c.limitPasses ++ b2 c.channelLosses ++ b2 c.boardClears

/-- READ_VERDICT (R140, Table 11.8). -/
def readVerdictData (s : State) : List Byte :=
  let v := s.vrd
  v.settings.operands.toBytes ++ [verdictByte v.verdict, BitVec.ofNat 8 v.factor]
    ++ [flagByte (bflt s), flagByte (drivingCalm s), flagByte v.sensedHigh, flagByte (lossStands s)]
    ++ [v.triggers.pairs] ++ b2 v.triggers.streams ++ [flagByte v.triggers.channelLoss]
    ++ originBytes v.origin ++ holdoffBytes s.clock v.verdict ++ v.counters.bytes

/-- The current entry, optional (Table 11.8). -/
def currentBytes : Option EchoEntry → List Byte
  | none => leBytes 5 0
  | some e => [1, BitVec.ofNat 8 (e.pair.1 + 1), BitVec.ofNat 8 (e.stream.1 + 1)] ++ leBytes 2 e.slot

/-- The single probe's state, line address, outcome and data (R124, Table 11.8). -/
def SingleProbe.bytes : SingleProbe → List Byte
  | .idle => leBytes 71 0
  | .busy a => 1 :: leBytes 5 a.toNat ++ leBytes 65 0
  | .done a (.ok d) => 2 :: leBytes 5 a.toNat ++ [1] ++ d.toList
  | .done a .starved => 2 :: leBytes 5 a.toNat ++ [2] ++ leBytes 64 0
  | .done a .overtaken => 2 :: leBytes 5 a.toNat ++ [3] ++ leBytes 64 0

def EchoCounters.bytes (c : EchoCounters) : List Byte :=
  b2 c.confirmed ++ b2 c.mismatched ++ b2 c.overtaken ++ b2 c.unread ++ b2 c.starved ++ b2 c.dropped
    ++ b2 c.unwatched ++ b2 c.withdrawn ++ b2 c.flushed

/-- The PRB state (Table 11.3). -/
def prbByte : PrbState → Byte
  | .idle => 0 | .requesting _ => 1 | .reading _ => 2

/-- The purpose of the line in hand (Table 11.3). -/
def purposeByte : Option Purpose → Byte
  | none => 0 | some .currentEntry => 1 | some .singleProbe => 2

/-- READ_PROBE (R124, R125, Table 11.8). -/
def readProbeData (s : State) : List Byte :=
  let e := s.echo
  [flagByte e.fetchCheck] ++ leBytes 4 e.waitLimit ++ [BitVec.ofNat 8 e.entries.length, BitVec.ofNat 8 (queuedCount s)]
    ++ [prbByte e.prb, purposeByte (linePurpose s)] ++ currentBytes (currentEntry s) ++ e.single.bytes
    ++ e.counters.bytes

/-- READ_TIME (R74, Table 11.8). -/
def readTimeData (s : State) : List Byte := b4 s.clock ++ stampBytes s.stamp

/-- What READ_SUMMARY reports of a link (Table 11.8). -/
def Link.summaryBytes (l : Link) : List Byte :=
  [selectionByte l.selection] ++ b2 l.errorCount ++ b4 l.frameCount ++ [errorKindByte l.lastError]

/-- The stream enables as a mask: bit n − 1 is stream n (R175). -/
def enablesMask (s : State) : Nat :=
  allStreams.foldl (fun a n => if (s.stream n).enabled then a + 2 ^ n.1 else a) 0

/-- READ_SUMMARY (R167, Table 11.8). -/
def readSummaryData (s : State) : List Byte :=
  let t := s.tap
  [s.straps.stn.setWidth 8, flagByte s.straps.baud, s.straps.amap.setWidth 8] ++ b4 s.clock
    ++ b4 t.writeCount ++ b4 t.readCount ++ b4 t.outsideCount ++ b2 t.unobservedCount ++ b2 t.discontinuities
    ++ [presenceByte t.presence, flagByte t.brstAsserted] ++ leBytes 2 (enablesMask s)
    ++ [BitVec.ofNat 8 s.commitQueue.length] ++ allPairs.map (fun p => healthByte (s.pair p).health)
    ++ leBytes 2 (entriesInUse s) ++ [BitVec.ofNat 8 s.echo.entries.length, BitVec.ofNat 8 (queuedCount s)]
    ++ [verdictByte s.vrd.verdict, flagByte (bflt s), flagByte s.vrd.sensedHigh]
    ++ [BitVec.ofNat 8 (winnerId s .A), BitVec.ofNat 8 (winnerId s .B)]
    ++ s.linkA.summaryBytes ++ s.linkB.summaryBytes

end Sys2Proof.Machine
end

