-- ==== Sys2Proof/Machine/Commands.lean ====
section
/-!
DEFINITION. The meanings of the commands that managers send on the links (Table 10.2), and of the two resets. Each owner takes
its command whole: it applies its checks in the order its rule gives and either refuses it, changing nothing, or carries it out
(R163). `takenX` is the owner's part, its new state and its reply; `execX` is the row, the reply on its way to the link.
-/

namespace Sys2Proof.Machine

/-- A refused command changes nothing (R163). -/
def refuse (st : Status) (s : State) : State × Reply := (s, Reply.plain st)

/-- A command carried out with the reply OK and no data. -/
def done (s : State) : State × Reply := (s, Reply.plain .ok)

/-- A read: the state unchanged and its data (R166). -/
def report (s : State) (data : List Byte) : State × Reply := (s, { status := .ok, data := data })

/-! ### Streams -/

/-- SET_STREAM at the ASM (R17). -/
def takenSetStream (o : SetStreamOps) (s : State) : State × Reply :=
  match streamOf o.stream.toNat with
  | none => refuse .range s
  | some n =>
    if (s.stream n).enabled then refuse .busy s
    else
      match o.structural? with
      | none => refuse .range s
      | some d =>
        if d.role ≠ (s.stream n).desc.role ∧ (s.pairOf n).isSome then refuse .range s
        else
          (s.modStream n (fun x => { x with desc := o.tuned d }), Reply.plain (takenStatus (o.clamped (o.tuned d))))

/-- READ_STREAM at the ASM with the HEV's pulse state (R20, R166). -/
def takenReadStream (b : Byte) (s : State) : State × Reply :=
  match streamOf b.toNat with
  | none => refuse .range s
  | some n => report s (readStreamData s n)

/-- The window of a stream meets that of an enabled stream (R18). -/
def overlapsEnabled (n : StreamIx) (s : State) : Bool :=
  (enabledWindows s).any fun w => w.meets (windowOf n (s.stream n).desc)

/-- A stream brought into service (R18, R20, R104). -/
def Stream.started (now : Clock) (brst : Bool) (x : Stream) : Stream :=
  { x with
    enabled := true, assemblies := [], seq := .unsynchronised, overrunPending := false, silent := false
    lastAccepted := now, counters := .zero
    pulse := { last := none
               timer := if x.desc.role = .pulse then (if brst then .held else .running now) else .stopped
               missCount := 0, pulses := 0, early := 0, missed := 0 } }

/-- ENABLE_STREAM at the ASM (R18). -/
def takenEnableStream (b : Byte) (s : State) : State × Reply :=
  match streamOf b.toNat with
  | none => refuse .range s
  | some n =>
    if (s.stream n).enabled then refuse .busy s
    else if overlapsEnabled n s then refuse .overlap s
    else done (rebuildLookup (s.modStream n (Stream.started s.clock s.tap.brstAsserted)))

/-- A stream taken out of service (R19, R104). -/
def Stream.stopped (x : Stream) : Stream :=
  { x with
    enabled := false, assemblies := [], seq := .unsynchronised, overrunPending := false, silent := false
    pulse := { x.pulse with last := none, timer := .stopped, missCount := 0 } }

/-- DISABLE_STREAM at the ASM (R19), with the echo entries withdrawn (R126) and the pulse trigger ended (R106); the PRB may
then take a line (R119). -/
def takenDisableStream (b : Byte) (s : State) : State × Reply :=
  match streamOf b.toNat with
  | none => refuse .range s
  | some n =>
    if (s.stream n).enabled then
      let s1 := rebuildLookup (s.modStream n Stream.stopped)
      let s2 := { s1 with commitQueue := s1.commitQueue.filter fun r => decide (r.stream ≠ n) }
      done (prbTake (withdrawStream n (leaveTrigger (.stream n) s2)))
    else done s

/-! ### Pairs -/

/-- A nonzero stream field names a stream of the role (R43, fourth check). -/
def hasRole (s : State) (role : Role) : Option StreamIx → Bool
  | none => true
  | some n => decide ((s.stream n).desc.role = role)

/-- A nonzero stream field names a stream that no other pair's descriptor names (R43, fifth check). -/
def unclaimedBy (s : State) (p : PairIx) : Option StreamIx → Bool
  | none => true
  | some n => allPairs.all fun r =>
      decide (r = p) || (decide ((s.pair r).desc.requestStream ≠ some n)
        && decide ((s.pair r).desc.completionStream ≠ some n))

/-- SET_PAIR at the COR (R43, R44); the EST recomputes T (R82). -/
def takenSetPair (o : SetPairOps) (s : State) : State × Reply :=
  match pairNumbered o.pair.toNat with
  | none => refuse .range s
  | some p =>
    if (s.pair p).health ≠ .disabled then refuse .busy s
    else
      match streamFieldOf o.requestStream, streamFieldOf o.completionStream, flagOf o.expectFetch, flagOf o.fence with
      | some req, some comp, some fetch, some fence =>
        let d := o.tuned req comp fetch fence
        if ¬ (hasRole s .request req ∧ hasRole s .completion comp) then refuse .range s
        else if ¬ (unclaimedBy s p req ∧ unclaimedBy s p comp) then refuse .range s
        else if d.tceil < d.tfloor then refuse .range s
        else
          (recomputeT p (s.modPair p fun q => { q with desc := d }), Reply.plain (takenStatus (o.clamped d)))
      | _, _, _, _ => refuse .range s

/-- READ_PAIR at the COR with the HEV's health state (R67, R101). -/
def takenReadPair (b : Byte) (s : State) : State × Reply :=
  match pairNumbered b.toNat with
  | none => refuse .range s
  | some p => report s (readPairData s p)

/-- A pair put into service (R45, R75, R102). -/
def Pair.started (w : EvalWindow) (q : Pair) : Pair :=
  { q with
    health := .healthy, counters := .zero, est := .initial
    hev := { HealthRecord.initial with window := some w } }

/-- ENABLE_PAIR at the COR (R45). -/
def takenEnablePair (b : Byte) (s : State) : State × Reply :=
  match pairNumbered b.toNat with
  | none => refuse .range s
  | some p =>
    if (s.pair p).health ≠ .disabled then refuse .busy s
    else if (s.pair p).desc.requestStream = none ∨ (s.pair p).desc.completionStream = none then refuse .range s
    else done (recomputeT p (s.modPair p (Pair.started (freshWindow s))))

/-- A pair taken to DRAINING (R46, R102). -/
def Pair.retired (q : Pair) : Pair :=
  { q with
    health := .draining
    hev := { q.hev with window := none, quiesceStart := none, confirm := 0, promotionPending := false } }

/-- RETIRE_PAIR at the COR (R46). -/
def takenRetirePair (b : Byte) (s : State) : State × Reply :=
  match pairNumbered b.toNat with
  | none => refuse .range s
  | some p =>
    match (s.pair p).health with
    | .failed => refuse .busy s
    | .disabled | .draining => done s
    | .healthy | .watch | .suspect | .quiesced => done (settleDraining p (s.modPair p Pair.retired))

/-- A FAILED pair returned to service (R97). -/
def Pair.cleared (w : EvalWindow) (q : Pair) : Pair :=
  { q with
    health := .healthy
    hev := { q.hev with history := [], confirm := 0, promotionPending := false, window := some w } }

/-- CLEAR_PAIR at the HEV (R97). -/
def takenClearPair (b : Byte) (s : State) : State × Reply :=
  match pairNumbered b.toNat with
  | none => refuse .range s
  | some p =>
    if (s.pair p).health ≠ .failed then refuse .range s
    else
      let s1 := s.modPair p (Pair.cleared (freshWindow s))
      done (if (s.pair p).desc.fence then leaveTrigger (.pair p) s1 else s1)

/-- READ_ESTIMATE at the EST (R84). -/
def takenReadEstimate (b : Byte) (s : State) : State × Reply :=
  match pairNumbered b.toNat with
  | none => refuse .range s
  | some p => report s (readEstimateData s p)

/-! ### Sources -/

/-- SET_SOURCE at the IAR (R145). -/
def takenSetSource (o : SetSourceOps) (s : State) : State × Reply :=
  match sourceOf o.source.toNat with
  | none => refuse .range s
  | some i =>
    match flagOf o.enable, targetOf o.target, triggerOf o.trigger with
    | some en, some tg, some tr =>
      (s.modSource i (fun x =>
          { x with priority := min o.priority.toNat 15, enable := en, target := tg, trigger := tr }),
        Reply.plain (takenStatus (decide (15 < o.priority.toNat))))
    | _, _, _ => refuse .range s

/-- READ_SOURCE at the IAR (R154). -/
def takenReadSource (b : Byte) (s : State) : State × Reply :=
  match sourceOf b.toNat with
  | none => refuse .range s
  | some i => report s (readSourceData s i)

/-- A threshold set (R147). -/
def Iar.setThreshold (m : Manager) (v : Nat) (r : Iar) : Iar :=
  match m with
  | .A => { r with thresholdA := v }
  | .B => { r with thresholdB := v }

/-- SET_THRESHOLD at the IAR (R147). -/
def takenSetThreshold (target threshold : Byte) (s : State) : State × Reply :=
  match targetOf target with
  | none => refuse .range s
  | some m =>
    ({ s with iar := s.iar.setThreshold m (min threshold.toNat 15) },
      Reply.plain (takenStatus (decide (15 < threshold.toNat))))

/-- CLAIM at the IAR, on the link of a manager (R151). -/
def takenClaim (m : Manager) (s : State) : State × Reply := report s (claimData s m)

/-- A source acknowledged: its findings emptied, and pending kept only when `still` (R152). -/
def Source.acknowledged (still : Bool) (x : Source) : Source :=
  { x with causes := 0, count := 0, firstStamp := none, lastStamp := none, pending := still }

/-- ACKNOWLEDGE at the IAR, on the link of a manager (R152). -/
def takenAcknowledge (m : Manager) (b : Byte) (s : State) : State × Reply :=
  match sourceOf b.toNat with
  | none => refuse .range s
  | some i =>
    if (s.source i).target ≠ m then refuse .notOwner s
    else if ¬ (s.source i).pending then done s
    else
      let still := decide ((s.source i).trigger = .level) && standing s i
      (s.modSource i (Source.acknowledged still), Reply.plain (if still then .still else .ok))

/-! ### Verdict -/

/-- The channel-loss limit and fence-on-loss of a taken SET_VERDICT (R10, R130). -/
def actOnLossSettings (wasFencing : Bool) (s : State) : State :=
  let s1 := if lossDue s then enterLost s else s
  if lossStands s1 then
    if ¬ wasFencing ∧ s1.vrd.settings.fenceOnLoss then joinTrigger .channelLoss s1
    else if wasFencing ∧ ¬ s1.vrd.settings.fenceOnLoss then leaveTrigger .channelLoss s1
    else s1
  else s1

/-- The hold-off limit of a taken SET_VERDICT (R130): 0 ends the hold-off, a limit already reached passes. -/
def actOnHoldoffLimit (s : State) : State :=
  match s.vrd.verdict with
  | .holdoff h =>
    if s.vrd.settings.holdoffLimit = 0 then releaseHoldoff s
    else if limitDue s h then passLimit h s
    else s
  | _ => s

/-- The release settle of a taken SET_VERDICT (R130). -/
def actOnReleaseSettle (s : State) : State :=
  match s.vrd.verdict with
  | .holdoff h => if releaseDue s h then releaseHoldoff s else s
  | _ => s

/-- The hold-off factor of a taken SET_VERDICT (R130). -/
def actOnFactor (s : State) : State :=
  match s.vrd.verdict with
  | .holdoff _ => if s.vrd.settings.holdoffFactor ≠ s.vrd.factor then setFactor s.vrd.settings.holdoffFactor s else s
  | _ => s

/-- SET_VERDICT at the VRD (R129, R130). Alarm drive acts on the line by itself (R133). -/
def takenSetVerdict (o : SetVerdictOps) (s : State) : State × Reply :=
  match factorOf o.holdoffFactor, flagOf o.fenceOnLoss, flagOf o.alarmDrive with
  | some f, some fence, some alarm =>
    let v := o.tuned fence alarm f
    (actOnFactor (actOnReleaseSettle (actOnHoldoffLimit (actOnLossSettings s.vrd.settings.fenceOnLoss
        (s.modVrd fun x => { x with settings := v })))),
      Reply.plain (takenStatus (o.clamped v)))
  | _, _, _ => refuse .range s

/-- CLEAR_BOARD at the VRD (R139). -/
def takenClearBoard (s : State) : State × Reply :=
  match s.vrd.verdict with
  | .fault =>
    if s.vrd.triggers.isEmpty then
      done (s.modVrd fun v =>
        { v with
          verdict := .normal
          counters := { v.counters with boardClears := satInc v.counters.boardClears } })
    else refuse .busy s
  | .normal | .holdoff _ => done s

/-! ### Probe -/

/-- The probe mode and the wait limit written; a switch to OFF acts (R118), and a line whose wait has already reached the new
limit starves (R117, R120). R118 and R117 do not say which comes first for a PROBING entry whose line has reached the new
limit. The switch to OFF comes first here (DESIGN CHOICE, notes/assumptions/34), so the entry is retired UNREAD with no
finding. -/
def applyProbe (fetch : Bool) (limit : Nat) (s : State) : State :=
  let s1 := if s.echo.fetchCheck ∧ ¬ fetch then switchProbeOff s else s
  let s2 := s1.modEcho fun e => { e with fetchCheck := fetch, waitLimit := limit }
  prbTake (if waitDue s2 then starveInHand s2 else s2)

/-- SET_PROBE at the ECH and the PRB (R117). -/
def takenSetProbe (mode : Byte) (waitLimit : BitVec 32) (s : State) : State × Reply :=
  match flagOf mode with
  | none => refuse .range s
  | some fetch =>
    let limit := clampTo 1 65535 waitLimit.toNat
    (applyProbe fetch limit s, Reply.plain (takenStatus (decide (limit ≠ waitLimit.toNat))))

/-- The single probe is outstanding (R123). -/
def SingleProbe.isBusy : SingleProbe → Bool
  | .busy _ => true
  | .idle | .done _ _ => false

/-- The address of the line that holds a byte address (R123). -/
def lineOfByte (address : BitVec 40) : LineAddr := BitVec.ofNat 36 (address.toNat / 64 * 64)

/-- PROBE_LINE at the PRB (R123). -/
def takenProbeLine (address : BitVec 40) (s : State) : State × Reply :=
  if 2 ^ 36 ≤ address.toNat then refuse .range s
  else if s.echo.single.isBusy then refuse .busy s
  else done (prbTake (s.modEcho fun e => { e with single := .busy (lineOfByte address) }))

/-- A DONE single probe has been collected (R124). -/
def SingleProbe.collected : SingleProbe → SingleProbe
  | .done _ _ => .idle
  | x => x

/-- READ_PROBE at the ECH and the PRB (R124, R125). -/
def takenReadProbe (s : State) : State × Reply :=
  (s.modEcho fun e => { e with single := e.single.collected }, { status := .ok, data := readProbeData s })

/-! ### Time -/

/-- SET_TIME at the TMB (R73). -/
def takenSetTime (seconds : BitVec 32) (tick : BitVec 16) (s : State) : State × Reply :=
  if 9999 < tick.toNat then refuse .range s
  else done { s with stamp := { seconds := seconds, tick := tick.toNat } }

/-! ### RESET_PART (R168) -/

/-- Every block's power-on state, but for what R168 keeps: the straps, the stamp clock, the open-row table, the clock presence
monitor, the judged level of BRST_N, the sensed level of CALM_N, the links' counts, and the commands that wait. The levels at
the pins and the bursts on the channel are the channel's own (notes/assumptions/2, 7). -/
def resetBlocks (s : State) : State :=
  let s0 := State.powerOn s.straps
  { s0 with
    stamp := s.stamp
    tap := { Tap.initial with
      openRows := s.tap.openRows, writesInFlight := s.tap.writesInFlight, readsInFlight := s.tap.readsInFlight
      presence := s.tap.presence, absence := s.tap.absence, brstAsserted := s.tap.brstAsserted
      port := { ProbePort.initial with pgnt := s.tap.port.pgnt } }
    vrd := { Vrd.initial with sensedHigh := s.vrd.sensedHigh }
    linkA := s.linkA, linkB := s.linkB, pending := s.pending }

/-- A link that RESET_PART deselects (R168): the frame in progress and the command handed on are dropped, and a reply stops after
the character being sent. The row of a dropped command is void (`Link.voids`). -/
def Link.resetByPart (l : Link) : Link :=
  { l with
    selection := .deselected, buffer := [], intake := .deselected, lastTaken := 0, lastReply := none
    dropped := l.dropHanded
    tx := match l.tx with | .sending _ => .finishing | x => x }

/-- The carrying link of RESET_PART (R168): DESELECTED, an overrun in HANDING counted (R160), and when the command arrived
individually the reply OK is sent. -/
def Link.resetCarrying (cmd : Instr) (l : Link) : Link :=
  let l1 := { l.resetByPart with lastReply := some (Reply.plain .ok) }
  match l.intake with
  | .handing c ov =>
    if c = cmd then
      let l2 := { (if ov then l1.countError .overrun else l1) with dropped := none }
      if l.selection = .selected then
        { l2 with intake := .replying false, tx := .sending (Reply.plain .ok).chars }
      else l2
    else l1
  | _ => l1

/-- The other manager. -/
def otherManager : Manager → Manager
  | .A => .B
  | .B => .A

/-! ### Meanings -/

/-- POWER_ON_RESET: PORST_N asserted, the straps read (section 1.4). The commands that wait are the model's and stay; one that
was in HANDING is dropped (R169). -/
def execPowerOnReset (straps : Straps) (s : State) : Host.Outcome State Fault Refusal :=
  .next { State.powerOn straps with
    linkA := { Link.initial with dropped := s.linkA.dropHanded }
    linkB := { Link.initial with dropped := s.linkB.dropHanded }
    pending := s.pending }

/-- READ_SUMMARY (R167). -/
def execReadSummary (link : Manager) (s : State) : Host.Outcome State Fault Refusal :=
  .next (answer link (.readSummary link) s (report s (readSummaryData s)))

/-- SET_STREAM (R17). -/
def execSetStream (link : Manager) (ops : SetStreamOps) (s : State) : Host.Outcome State Fault Refusal :=
  .next (answer link (.setStream link ops) s (takenSetStream ops s))

/-- READ_STREAM (R20, R104, R166). -/
def execReadStream (link : Manager) (stream : Byte) (s : State) : Host.Outcome State Fault Refusal :=
  .next (answer link (.readStream link stream) s (takenReadStream stream s))

/-- ENABLE_STREAM (R18). -/
def execEnableStream (link : Manager) (stream : Byte) (s : State) : Host.Outcome State Fault Refusal :=
  .next (answer link (.enableStream link stream) s (takenEnableStream stream s))

/-- DISABLE_STREAM (R19). -/
def execDisableStream (link : Manager) (stream : Byte) (s : State) : Host.Outcome State Fault Refusal :=
  .next (answer link (.disableStream link stream) s (takenDisableStream stream s))

/-- SET_PAIR (R43, R44). -/
def execSetPair (link : Manager) (ops : SetPairOps) (s : State) : Host.Outcome State Fault Refusal :=
  .next (answer link (.setPair link ops) s (takenSetPair ops s))

/-- READ_PAIR (R67, R101). -/
def execReadPair (link : Manager) (pair : Byte) (s : State) : Host.Outcome State Fault Refusal :=
  .next (answer link (.readPair link pair) s (takenReadPair pair s))

/-- ENABLE_PAIR (R45). -/
def execEnablePair (link : Manager) (pair : Byte) (s : State) : Host.Outcome State Fault Refusal :=
  .next (answer link (.enablePair link pair) s (takenEnablePair pair s))

/-- RETIRE_PAIR (R46). -/
def execRetirePair (link : Manager) (pair : Byte) (s : State) : Host.Outcome State Fault Refusal :=
  .next (answer link (.retirePair link pair) s (takenRetirePair pair s))

/-- CLEAR_PAIR (R97). -/
def execClearPair (link : Manager) (pair : Byte) (s : State) : Host.Outcome State Fault Refusal :=
  .next (answer link (.clearPair link pair) s (takenClearPair pair s))

/-- READ_ESTIMATE (R84). -/
def execReadEstimate (link : Manager) (pair : Byte) (s : State) : Host.Outcome State Fault Refusal :=
  .next (answer link (.readEstimate link pair) s (takenReadEstimate pair s))

/-- SET_SOURCE (R145, R146). -/
def execSetSource (link : Manager) (ops : SetSourceOps) (s : State) : Host.Outcome State Fault Refusal :=
  .next (answer link (.setSource link ops) s (takenSetSource ops s))

/-- READ_SOURCE (R154). -/
def execReadSource (link : Manager) (source : Byte) (s : State) : Host.Outcome State Fault Refusal :=
  .next (answer link (.readSource link source) s (takenReadSource source s))

/-- SET_THRESHOLD (R147). -/
def execSetThreshold (link : Manager) (target threshold : Byte) (s : State) : Host.Outcome State Fault Refusal :=
  .next (answer link (.setThreshold link target threshold) s (takenSetThreshold target threshold s))

/-- CLAIM (R151). -/
def execClaim (link : Manager) (s : State) : Host.Outcome State Fault Refusal :=
  .next (answer link (.claim link) s (takenClaim link s))

/-- ACKNOWLEDGE (R152). -/
def execAcknowledge (link : Manager) (source : Byte) (s : State) : Host.Outcome State Fault Refusal :=
  .next (answer link (.acknowledge link source) s (takenAcknowledge link source s))

/-- SET_VERDICT (R129, R130). -/
def execSetVerdict (link : Manager) (ops : SetVerdictOps) (s : State) : Host.Outcome State Fault Refusal :=
  .next (answer link (.setVerdict link ops) s (takenSetVerdict ops s))

/-- READ_VERDICT (R140). -/
def execReadVerdict (link : Manager) (s : State) : Host.Outcome State Fault Refusal :=
  .next (answer link (.readVerdict link) s (report s (readVerdictData s)))

/-- CLEAR_BOARD (R139). -/
def execClearBoard (link : Manager) (s : State) : Host.Outcome State Fault Refusal :=
  .next (answer link (.clearBoard link) s (takenClearBoard s))

/-- SET_PROBE (R117, R118). -/
def execSetProbe (link : Manager) (mode : Byte) (waitLimit : BitVec 32) (s : State) :
    Host.Outcome State Fault Refusal :=
  .next (answer link (.setProbe link mode waitLimit) s (takenSetProbe mode waitLimit s))

/-- PROBE_LINE (R123). -/
def execProbeLine (link : Manager) (address : BitVec 40) (s : State) : Host.Outcome State Fault Refusal :=
  .next (answer link (.probeLine link address) s (takenProbeLine address s))

/-- READ_PROBE (R124, R125). -/
def execReadProbe (link : Manager) (s : State) : Host.Outcome State Fault Refusal :=
  .next (answer link (.readProbe link) s (takenReadProbe s))

/-- SET_TIME (R73). -/
def execSetTime (link : Manager) (seconds : BitVec 32) (tick : BitVec 16) (s : State) :
    Host.Outcome State Fault Refusal :=
  .next (answer link (.setTime link seconds tick) s (takenSetTime seconds tick s))

/-- READ_TIME (R74). -/
def execReadTime (link : Manager) (s : State) : Host.Outcome State Fault Refusal :=
  .next (answer link (.readTime link) s (report s (readTimeData s)))

/-- RESET_PART (R168). -/
def execResetPart (link : Manager) (s : State) : Host.Outcome State Fault Refusal :=
  .next (unlessVoid link (.resetPart link) s
    (((resetBlocks s).modLink link (Link.resetCarrying (.resetPart link))).modLink (otherManager link)
      Link.resetByPart))

end Sys2Proof.Machine
end

