-- ==== Sys2Proof/Machine/Dispatch.lean ====
section
/-!
DEFINITION. The meaning of each command: one arm per constructor of `Instr`, one direct call of its meaning.
-/

namespace Sys2Proof.Machine

def exec (i : Instr) (s : State) : Host.Outcome State Fault Refusal :=
  match i with
  | .powerOnReset straps => Sys2Proof.Machine.execPowerOnReset straps s
  | .tickBoundary channelLive => Sys2Proof.Machine.execTickBoundary channelLive s
  | .rowActivate bank row => Sys2Proof.Machine.execRowActivate bank row s
  | .bankPrecharge bank => Sys2Proof.Machine.execBankPrecharge bank s
  | .rankPrecharge rank => Sys2Proof.Machine.execRankPrecharge rank s
  | .columnCommand bank column op length autoPrecharge => Sys2Proof.Machine.execColumnCommand bank column op length autoPrecharge s
  | .writeDataComplete which data dataMask duringReset => Sys2Proof.Machine.execWriteDataComplete which data dataMask duringReset s
  | .readDataComplete which data duringReset => Sys2Proof.Machine.execReadDataComplete which data duringReset s
  | .corTakeRecord => Sys2Proof.Machine.execCorTakeRecord s
  | .assemblyAbandon stream slot => Sys2Proof.Machine.execAssemblyAbandon stream slot s
  | .silence stream => Sys2Proof.Machine.execSilence stream s
  | .entryExpiry pair => Sys2Proof.Machine.execEntryExpiry pair s
  | .entryLoss pair => Sys2Proof.Machine.execEntryLoss pair s
  | .windowEnd pair => Sys2Proof.Machine.execWindowEnd pair s
  | .quiesceOverrun pair => Sys2Proof.Machine.execQuiesceOverrun pair s
  | .pulseMissed stream => Sys2Proof.Machine.execPulseMissed stream s
  | .echoOverdue => Sys2Proof.Machine.execEchoOverdue s
  | .probeGrant => Sys2Proof.Machine.execProbeGrant s
  | .probeDataReturn data abandoned => Sys2Proof.Machine.execProbeDataReturn data abandoned s
  | .probeGrantReleased => Sys2Proof.Machine.execProbeGrantReleased s
  | .grantWaitExpiry => Sys2Proof.Machine.execGrantWaitExpiry s
  | .clockStop => Sys2Proof.Machine.execClockStop s
  | .channelLoss => Sys2Proof.Machine.execChannelLoss s
  | .clockResume => Sys2Proof.Machine.execClockResume s
  | .returnAfterLoss => Sys2Proof.Machine.execReturnAfterLoss s
  | .boardResetAsserted => Sys2Proof.Machine.execBoardResetAsserted s
  | .boardResetReleased => Sys2Proof.Machine.execBoardResetReleased s
  | .calmNJudgement lineHigh => Sys2Proof.Machine.execCalmNJudgement lineHigh s
  | .holdoffRelease => Sys2Proof.Machine.execHoldoffRelease s
  | .holdoffLimit => Sys2Proof.Machine.execHoldoffLimit s
  | .addressCharacter link char => Sys2Proof.Machine.execAddressCharacter link char s
  | .dataCharacter link char => Sys2Proof.Machine.execDataCharacter link char s
  | .frameGapTimeout link => Sys2Proof.Machine.execFrameGapTimeout link s
  | .replyComplete link => Sys2Proof.Machine.execReplyComplete link s
  | .readSummary link => Sys2Proof.Machine.execReadSummary link s
  | .setStream link ops => Sys2Proof.Machine.execSetStream link ops s
  | .readStream link stream => Sys2Proof.Machine.execReadStream link stream s
  | .enableStream link stream => Sys2Proof.Machine.execEnableStream link stream s
  | .disableStream link stream => Sys2Proof.Machine.execDisableStream link stream s
  | .setPair link ops => Sys2Proof.Machine.execSetPair link ops s
  | .readPair link pair => Sys2Proof.Machine.execReadPair link pair s
  | .enablePair link pair => Sys2Proof.Machine.execEnablePair link pair s
  | .retirePair link pair => Sys2Proof.Machine.execRetirePair link pair s
  | .clearPair link pair => Sys2Proof.Machine.execClearPair link pair s
  | .readEstimate link pair => Sys2Proof.Machine.execReadEstimate link pair s
  | .setSource link ops => Sys2Proof.Machine.execSetSource link ops s
  | .readSource link source => Sys2Proof.Machine.execReadSource link source s
  | .setThreshold link target threshold => Sys2Proof.Machine.execSetThreshold link target threshold s
  | .claim link => Sys2Proof.Machine.execClaim link s
  | .acknowledge link source => Sys2Proof.Machine.execAcknowledge link source s
  | .setVerdict link ops => Sys2Proof.Machine.execSetVerdict link ops s
  | .readVerdict link => Sys2Proof.Machine.execReadVerdict link s
  | .clearBoard link => Sys2Proof.Machine.execClearBoard link s
  | .setProbe link mode waitLimit => Sys2Proof.Machine.execSetProbe link mode waitLimit s
  | .probeLine link address => Sys2Proof.Machine.execProbeLine link address s
  | .readProbe link => Sys2Proof.Machine.execReadProbe link s
  | .setTime link seconds tick => Sys2Proof.Machine.execSetTime link seconds tick s
  | .readTime link => Sys2Proof.Machine.execReadTime link s
  | .resetPart link => Sys2Proof.Machine.execResetPart link s
  | .abandonedReplyStop link => Sys2Proof.Machine.execAbandonedReplyStop link s

end Sys2Proof.Machine
end

