-- ==== Sys2Proof/Laws/PerInstr.lean ====
section
/-!
SUPPORT. Statements made for each command: the frame that carries it spells it (`FrameRoundTrip`).
-/

namespace Sys2Proof

/-! ### Numbers (R172) -/

theorem leBytes_length (n v : Nat) : (leBytes n v).length = n := by
  induction n generalizing v with
  | zero => rfl
  | succ n ih => simp [leBytes, ih]

theorem leNat_leBytes (n v : Nat) : leNat (leBytes n v) = v % 256 ^ n := by
  induction n generalizing v with
  | zero => simp [leBytes, leNat, Nat.mod_one]
  | succ n ih =>
    simp only [leBytes, leNat, ih, BitVec.toNat_ofNat]
    have h : (256 : Nat) ^ (n + 1) = 256 * 256 ^ n := by rw [Nat.pow_succ, Nat.mul_comm]
    rw [h, Nat.mod_mul]

theorem ofNat_leBytes {w : Nat} (n : Nat) (h : 2 ^ w ≤ 256 ^ n) (x : BitVec w) :
    BitVec.ofNat w (leNat (leBytes n x.toNat)) = x := by
  rw [leNat_leBytes, Nat.mod_eq_of_lt (lt_of_lt_of_le x.isLt h), BitVec.ofNat_toNat, BitVec.setWidth_eq]

theorem ofNat_leNat_one (b : Byte) : BitVec.ofNat 8 (leNat [b]) = b := by
  simp [leNat]

/-! ### Operand layouts (Table 11.7) -/

theorem ofNat_leBytes_two (x : BitVec 16) : BitVec.ofNat 16 (leNat (leBytes 2 x.toNat)) = x :=
  ofNat_leBytes 2 (by norm_num) x

theorem ofNat_leBytes_four (x : BitVec 32) : BitVec.ofNat 32 (leNat (leBytes 4 x.toNat)) = x :=
  ofNat_leBytes 4 (by norm_num) x

theorem ofNat_leBytes_five (x : BitVec 40) : BitVec.ofNat 40 (leNat (leBytes 5 x.toNat)) = x :=
  ofNat_leBytes 5 (by norm_num) x

theorem setStream_bytes (o : SetStreamOps) : SetStreamOps.ofBytes o.toBytes = o := by
  have h : SetStreamOps.ofBytes o.toBytes =
      { stream := BitVec.ofNat 8 (leNat [o.stream])
        role := BitVec.ofNat 8 (leNat [o.role])
        base := BitVec.ofNat 40 (leNat (leBytes 5 o.base.toNat))
        slotSize := BitVec.ofNat 8 (leNat [o.slotSize])
        slotCount := BitVec.ofNat 16 (leNat (leBytes 2 o.slotCount.toNat))
        marker := BitVec.ofNat 16 (leNat (leBytes 2 o.marker.toNat))
        commitMode := BitVec.ofNat 8 (leNat [o.commitMode])
        lapPolarity := BitVec.ofNat 8 (leNat [o.lapPolarity])
        reorderSpan := BitVec.ofNat 8 (leNat [o.reorderSpan])
        silenceLimit := BitVec.ofNat 32 (leNat (leBytes 4 o.silenceLimit.toNat))
        assemblyLimit := BitVec.ofNat 32 (leNat (leBytes 4 o.assemblyLimit.toNat))
        minInterval := BitVec.ofNat 32 (leNat (leBytes 4 o.minInterval.toNat))
        maxInterval := BitVec.ofNat 32 (leNat (leBytes 4 o.maxInterval.toNat))
        missLimit := BitVec.ofNat 8 (leNat [o.missLimit])
        fence := BitVec.ofNat 8 (leNat [o.fence]) } := rfl
  rw [h]; simp only [ofNat_leNat_one, ofNat_leBytes_two, ofNat_leBytes_four, ofNat_leBytes_five]

theorem setPair_bytes (o : SetPairOps) : SetPairOps.ofBytes o.toBytes = o := by
  have h : SetPairOps.ofBytes o.toBytes =
      { pair := BitVec.ofNat 8 (leNat [o.pair])
        requestStream := BitVec.ofNat 8 (leNat [o.requestStream])
        completionStream := BitVec.ofNat 8 (leNat [o.completionStream])
        quota := BitVec.ofNat 16 (leNat (leBytes 2 o.quota.toNat))
        holdLimit := BitVec.ofNat 8 (leNat [o.holdLimit])
        gm := BitVec.ofNat 8 (leNat [o.gm])
        gd := BitVec.ofNat 8 (leNat [o.gd])
        k := BitVec.ofNat 8 (leNat [o.k])
        tfloor := BitVec.ofNat 32 (leNat (leBytes 4 o.tfloor.toNat))
        tceil := BitVec.ofNat 32 (leNat (leBytes 4 o.tceil.toNat))
        armingCount := BitVec.ofNat 8 (leNat [o.armingCount])
        window := BitVec.ofNat 32 (leNat (leBytes 4 o.window.toNat))
        toleranceShift := BitVec.ofNat 8 (leNat [o.toleranceShift])
        confirmCount := BitVec.ofNat 8 (leNat [o.confirmCount])
        quiesceLimit := BitVec.ofNat 32 (leNat (leBytes 4 o.quiesceLimit.toNat))
        expectFetch := BitVec.ofNat 8 (leNat [o.expectFetch])
        echoDeadline := BitVec.ofNat 32 (leNat (leBytes 4 o.echoDeadline.toNat))
        fence := BitVec.ofNat 8 (leNat [o.fence]) } := rfl
  rw [h]; simp only [ofNat_leNat_one, ofNat_leBytes_two, ofNat_leBytes_four]

theorem setSource_bytes (o : SetSourceOps) : SetSourceOps.ofBytes o.toBytes = o := by
  have h : SetSourceOps.ofBytes o.toBytes =
      { source := BitVec.ofNat 8 (leNat [o.source])
        priority := BitVec.ofNat 8 (leNat [o.priority])
        enable := BitVec.ofNat 8 (leNat [o.enable])
        target := BitVec.ofNat 8 (leNat [o.target])
        trigger := BitVec.ofNat 8 (leNat [o.trigger]) } := rfl
  rw [h]; simp only [ofNat_leNat_one]

theorem setVerdict_bytes (o : SetVerdictOps) : SetVerdictOps.ofBytes o.toBytes = o := by
  have h : SetVerdictOps.ofBytes o.toBytes =
      { channelLossLimit := BitVec.ofNat 32 (leNat (leBytes 4 o.channelLossLimit.toNat))
        fenceOnLoss := BitVec.ofNat 8 (leNat [o.fenceOnLoss])
        alarmDrive := BitVec.ofNat 8 (leNat [o.alarmDrive])
        holdoffFactor := BitVec.ofNat 8 (leNat [o.holdoffFactor])
        releaseSettle := BitVec.ofNat 32 (leNat (leBytes 4 o.releaseSettle.toNat))
        holdoffLimit := BitVec.ofNat 32 (leNat (leBytes 4 o.holdoffLimit.toNat)) } := rfl
  rw [h]; simp only [ofNat_leNat_one, ofNat_leBytes_four]

/-! ### Every command -/

namespace Laws.FrameRoundTrip

/-- A command that is taken from a link has a frame, and the link decodes that frame's CODE and operands to the command; a
command that is not taken from a link has none (R163, R172, R173, R174). -/
def Statement (i : Instr) : Prop :=
  match i.link?, frameOf i with
  | some l, some f => decodeFrame l f.1 f.2 = .command i ∧ f.2.length + 2 ≤ 60
  | none, none => True
  | _, _ => False

theorem powerOnReset (straps : Straps) : Statement (.powerOnReset straps) := trivial
theorem tickBoundary (channelLive : Bool) : Statement (.tickBoundary channelLive) := trivial
theorem rowActivate (bank : BankAddr) (row : RowNumber) : Statement (.rowActivate bank row) := trivial
theorem bankPrecharge (bank : BankAddr) : Statement (.bankPrecharge bank) := trivial
theorem rankPrecharge (rank : BitVec 2) : Statement (.rankPrecharge rank) := trivial
theorem columnCommand (bank : BankAddr) (column : BitVec 10) (op : ColumnOp) (length : BurstLength) (autoPrecharge : Bool) : Statement (.columnCommand bank column op length autoPrecharge) := trivial
theorem writeDataComplete (which : Nat) (data : LineData) (dataMask : ByteMask) (duringReset : Bool) : Statement (.writeDataComplete which data dataMask duringReset) := trivial
theorem readDataComplete (which : Nat) (data : LineData) (duringReset : Bool) : Statement (.readDataComplete which data duringReset) := trivial
theorem corTakeRecord : Statement (.corTakeRecord) := trivial
theorem assemblyAbandon (stream : StreamIx) (slot : Nat) : Statement (.assemblyAbandon stream slot) := trivial
theorem silence (stream : StreamIx) : Statement (.silence stream) := trivial
theorem entryExpiry (pair : PairIx) : Statement (.entryExpiry pair) := trivial
theorem entryLoss (pair : PairIx) : Statement (.entryLoss pair) := trivial
theorem windowEnd (pair : PairIx) : Statement (.windowEnd pair) := trivial
theorem quiesceOverrun (pair : PairIx) : Statement (.quiesceOverrun pair) := trivial
theorem pulseMissed (stream : StreamIx) : Statement (.pulseMissed stream) := trivial
theorem echoOverdue : Statement (.echoOverdue) := trivial
theorem probeGrant : Statement (.probeGrant) := trivial
theorem probeDataReturn (data : LineData) (abandoned : Bool) : Statement (.probeDataReturn data abandoned) := trivial
theorem probeGrantReleased : Statement (.probeGrantReleased) := trivial
theorem grantWaitExpiry : Statement (.grantWaitExpiry) := trivial
theorem clockStop : Statement (.clockStop) := trivial
theorem channelLoss : Statement (.channelLoss) := trivial
theorem clockResume : Statement (.clockResume) := trivial
theorem returnAfterLoss : Statement (.returnAfterLoss) := trivial
theorem boardResetAsserted : Statement (.boardResetAsserted) := trivial
theorem boardResetReleased : Statement (.boardResetReleased) := trivial
theorem calmNJudgement (lineHigh : Bool) : Statement (.calmNJudgement lineHigh) := trivial
theorem holdoffRelease : Statement (.holdoffRelease) := trivial
theorem holdoffLimit : Statement (.holdoffLimit) := trivial
theorem addressCharacter (link : Manager) (char : LinkChar) : Statement (.addressCharacter link char) := trivial
theorem dataCharacter (link : Manager) (char : LinkChar) : Statement (.dataCharacter link char) := trivial
theorem frameGapTimeout (link : Manager) : Statement (.frameGapTimeout link) := trivial
theorem replyComplete (link : Manager) : Statement (.replyComplete link) := trivial
theorem readSummary (link : Manager) : Statement (.readSummary link) := ⟨rfl, by decide⟩
theorem setStream (link : Manager) (ops : SetStreamOps) : Statement (.setStream link ops) :=
  ⟨congrArg (FrameDecoded.command ∘ Instr.setStream link) (setStream_bytes ops), Nat.le_of_ble_eq_true rfl⟩
theorem readStream (link : Manager) (stream : Byte) : Statement (.readStream link stream) :=
  ⟨congrArg (FrameDecoded.command ∘ Instr.readStream link) (ofNat_leNat_one _), by simp⟩
theorem enableStream (link : Manager) (stream : Byte) : Statement (.enableStream link stream) :=
  ⟨congrArg (FrameDecoded.command ∘ Instr.enableStream link) (ofNat_leNat_one _), by simp⟩
theorem disableStream (link : Manager) (stream : Byte) : Statement (.disableStream link stream) :=
  ⟨congrArg (FrameDecoded.command ∘ Instr.disableStream link) (ofNat_leNat_one _), by simp⟩
theorem setPair (link : Manager) (ops : SetPairOps) : Statement (.setPair link ops) :=
  ⟨congrArg (FrameDecoded.command ∘ Instr.setPair link) (setPair_bytes ops), Nat.le_of_ble_eq_true rfl⟩
theorem readPair (link : Manager) (pair : Byte) : Statement (.readPair link pair) :=
  ⟨congrArg (FrameDecoded.command ∘ Instr.readPair link) (ofNat_leNat_one _), by simp⟩
theorem enablePair (link : Manager) (pair : Byte) : Statement (.enablePair link pair) :=
  ⟨congrArg (FrameDecoded.command ∘ Instr.enablePair link) (ofNat_leNat_one _), by simp⟩
theorem retirePair (link : Manager) (pair : Byte) : Statement (.retirePair link pair) :=
  ⟨congrArg (FrameDecoded.command ∘ Instr.retirePair link) (ofNat_leNat_one _), by simp⟩
theorem clearPair (link : Manager) (pair : Byte) : Statement (.clearPair link pair) :=
  ⟨congrArg (FrameDecoded.command ∘ Instr.clearPair link) (ofNat_leNat_one _), by simp⟩
theorem readEstimate (link : Manager) (pair : Byte) : Statement (.readEstimate link pair) :=
  ⟨congrArg (FrameDecoded.command ∘ Instr.readEstimate link) (ofNat_leNat_one _), by simp⟩
theorem setSource (link : Manager) (ops : SetSourceOps) : Statement (.setSource link ops) :=
  ⟨congrArg (FrameDecoded.command ∘ Instr.setSource link) (setSource_bytes ops), Nat.le_of_ble_eq_true rfl⟩
theorem readSource (link : Manager) (source : Byte) : Statement (.readSource link source) :=
  ⟨congrArg (FrameDecoded.command ∘ Instr.readSource link) (ofNat_leNat_one _), by simp⟩
theorem setThreshold (link : Manager) (target : Byte) (threshold : Byte) : Statement (.setThreshold link target threshold) :=
  ⟨congrArg FrameDecoded.command (congr (congrArg (Instr.setThreshold link) (ofNat_leNat_one _)) (ofNat_leNat_one _)), by simp⟩
theorem claim (link : Manager) : Statement (.claim link) := ⟨rfl, by decide⟩
theorem acknowledge (link : Manager) (source : Byte) : Statement (.acknowledge link source) :=
  ⟨congrArg (FrameDecoded.command ∘ Instr.acknowledge link) (ofNat_leNat_one _), by simp⟩
theorem setVerdict (link : Manager) (ops : SetVerdictOps) : Statement (.setVerdict link ops) :=
  ⟨congrArg (FrameDecoded.command ∘ Instr.setVerdict link) (setVerdict_bytes ops), Nat.le_of_ble_eq_true rfl⟩
theorem readVerdict (link : Manager) : Statement (.readVerdict link) := ⟨rfl, by decide⟩
theorem clearBoard (link : Manager) : Statement (.clearBoard link) := ⟨rfl, by decide⟩
theorem setProbe (link : Manager) (mode : Byte) (waitLimit : BitVec 32) : Statement (.setProbe link mode waitLimit) :=
  ⟨congrArg FrameDecoded.command (congr (congrArg (Instr.setProbe link) (ofNat_leNat_one _)) (ofNat_leBytes 4 (by norm_num) waitLimit)),
    by simp [leBytes_length]⟩
theorem probeLine (link : Manager) (address : BitVec 40) : Statement (.probeLine link address) :=
  ⟨congrArg FrameDecoded.command (congrArg (Instr.probeLine link) (ofNat_leBytes 5 (by norm_num) address)),
    by simp [leBytes_length]⟩
theorem readProbe (link : Manager) : Statement (.readProbe link) := ⟨rfl, by decide⟩
theorem setTime (link : Manager) (seconds : BitVec 32) (tick : BitVec 16) : Statement (.setTime link seconds tick) :=
  ⟨congrArg FrameDecoded.command (congr (congrArg (Instr.setTime link) (ofNat_leBytes 4 (by norm_num) seconds))
    (ofNat_leBytes 2 (by norm_num) tick)), by simp [leBytes_length]⟩
theorem readTime (link : Manager) : Statement (.readTime link) := ⟨rfl, by decide⟩
theorem resetPart (link : Manager) : Statement (.resetPart link) := ⟨rfl, by decide⟩
theorem abandonedReplyStop (link : Manager) : Statement (.abandonedReplyStop link) := trivial

end Laws.FrameRoundTrip

end Sys2Proof
end

