-- ==== Sys2Proof/Safety.lean ====
section
/-!
DEFINITION. What counts as a safe run, in the terms the statements use. First the events that are due in a state: the manual
has each of them happen at the moment it is due (R50, R71), and the model lets its sender send it later
(notes/assumptions/9). Then the words in which a change of the state is said: what changed, and that nothing else did. Then
the invariants, each over one kind of state.
-/

namespace Sys2Proof.Machine

/-! ### Events that are due -/

/-- The open-list head of an enabled or DRAINING pair has reached T (R62). -/
def expiryDue (s : State) (p : PairIx) : Bool :=
  match (s.pair p).openList with
  | [] => false
  | e :: _ => (s.pair p).health.active && decide ((s.pair p).timeout ≤ e.age s.clock)

/-- The late-list head of an enabled or DRAINING pair has reached T (R63). -/
def entryLossDue (s : State) (p : PairIx) : Bool :=
  match (s.pair p).lateList with
  | [] => false
  | e :: _ => (s.pair p).health.active && decide ((s.pair p).timeout ≤ e.time s.clock)

/-- The assembly of a slot has reached the assembly limit (R28). -/
def slotAbandonDue (s : State) (n : StreamIx) (slot : Nat) : Bool :=
  match findAssembly slot (s.stream n).assemblies with
  | none => false
  | some a => abandonDue s n a

/-- The hold-off of the verdict has reached its release settle (R136). -/
def holdoffReleaseDue (s : State) : Bool :=
  match s.vrd.verdict with
  | .holdoff h => releaseDue s h
  | _ => false

/-- The hold-off of the verdict has reached its limit (R137). -/
def holdoffLimitDue (s : State) : Bool :=
  match s.vrd.verdict with
  | .holdoff h => limitDue s h
  | _ => false

/-- The gap of a link that is RECEIVING or SKIPPING has exceeded 2 ms (R161). -/
def linkGapDue (s : State) (m : Manager) : Bool :=
  match (s.link m).intake with
  | .receiving _ | .skipping => gapDue s.clock (s.link m)
  | .deselected | .waiting | .handing _ _ | .replying _ => false

/-- Whether a timed judgement of the table finds its event due. Every other row of the table is sent from outside, and is due
when its sender sends it. -/
def dueNow (s : State) : Instr → Bool
  | .corTakeRecord => decide (s.commitQueue ≠ [])
  | .assemblyAbandon n slot => slotAbandonDue s n slot
  | .silence n => silenceDue s n
  | .entryExpiry p => expiryDue s p
  | .entryLoss p => entryLossDue s p
  | .windowEnd p => windowDue s p
  | .quiesceOverrun p => quiesceDue s p
  | .pulseMissed n => pulseDue s n
  | .echoOverdue => (s.echo.entries.find? (EchoEntry.overdue s)).isSome
  | .grantWaitExpiry => waitDue s
  | .channelLoss => lossDue s
  | .holdoffRelease => holdoffReleaseDue s
  | .holdoffLimit => holdoffLimitDue s
  | .frameGapTimeout m => linkGapDue s m
  | _ => true

/-- The timed judgements of the table: the rows that the part sends itself when a limit is reached or its queue is not
empty. -/
def timed : Instr → Bool
  | .corTakeRecord | .assemblyAbandon _ _ | .silence _ | .entryExpiry _ | .entryLoss _ | .windowEnd _
  | .quiesceOverrun _ | .pulseMissed _ | .echoOverdue | .grantWaitExpiry | .channelLoss | .holdoffRelease
  | .holdoffLimit | .frameGapTimeout _ => true
  | _ => false

/-- The commands that owners have been handed and not yet taken (R163). -/
def handedCommands (s : State) : List Instr :=
  ([s.linkA, s.linkB] : List Link).filterMap fun l =>
    match l.intake with
    | .handing c _ => some c
    | .deselected | .waiting | .receiving _ | .skipping | .replying _ => none

/-- The timed judgements that the part makes, one for each thing that it holds. -/
def judgements (s : State) : List Instr :=
  let board : List Instr := [.corTakeRecord, .echoOverdue, .grantWaitExpiry, .channelLoss, .holdoffRelease, .holdoffLimit,
    .frameGapTimeout .A, .frameGapTimeout .B]
  let ofStream (n : StreamIx) : List Instr :=
    .silence n :: .pulseMissed n :: (s.stream n).assemblies.map fun a => .assemblyAbandon n a.slot
  let ofPair (p : PairIx) : List Instr := [.entryExpiry p, .entryLoss p, .windowEnd p, .quiesceOverrun p]
  board ++ allStreams.flatMap ofStream ++ allPairs.flatMap ofPair

/-- The timed judgements that are due in a state. -/
def dueEvents (s : State) : List Instr := (judgements s).filter (dueNow s)

/-- A state in which nothing is due and no command waits for an owner: the part changes only when something reaches it. -/
def quiet (s : State) : Bool := (dueEvents s).isEmpty && (handedCommands s).isEmpty

/-- The PRB has no line to take in hand, or may take none (R119). -/
def prbSettled (s : State) : Prop :=
  s.echo.prb ≠ .idle ∨ s.tap.brstAsserted = true
    ∨ (s.echo.single.isBusy = false ∧ currentEntry s = none ∧ s.echo.probeQueue = [])

/-! ### What changed, and that nothing else did -/

/-- Every stream but one is as it was. -/
def OtherStreams (n : StreamIx) (s t : State) : Prop := ∀ m : StreamIx, m ≠ n → t.stream m = s.stream m

/-- Every pair but one is as it was. -/
def OtherPairs (p : PairIx) (s t : State) : Prop := ∀ r : PairIx, r ≠ p → t.pair r = s.pair r

/-- A source has taken one posting of a cause with the stamp clock as it stands (R144). -/
def PostedAt (i : SourceIx) (c : Cause) (s t : State) : Prop :=
  (t.source i).causes = (s.source i).causes ||| BitVec.ofNat 16 (2 ^ c.bit)
    ∧ (t.source i).count.toNat = min ((s.source i).count.toNat + 1) 255
    ∧ (t.source i).lastStamp = some s.stamp
    ∧ (t.source i).firstStamp = (match (s.source i).firstStamp with | none => some s.stamp | some x => some x)
    ∧ (t.source i).pending = true
    ∧ (t.source i).priority = (s.source i).priority ∧ (t.source i).enable = (s.source i).enable
    ∧ (t.source i).target = (s.source i).target ∧ (t.source i).trigger = (s.source i).trigger

/-- Every source but one is as it was, and both thresholds. -/
def OtherSources (i : SourceIx) (s t : State) : Prop :=
  (∀ j : SourceIx, j ≠ i → t.source j = s.source j)
    ∧ t.iar.thresholdA = s.iar.thresholdA ∧ t.iar.thresholdB = s.iar.thresholdB

/-- A source has taken one posting, and every other source and both thresholds are as they were (R144). -/
def Posted (i : SourceIx) (c : Cause) (s t : State) : Prop := PostedAt i c s t ∧ OtherSources i s t

/-- Nothing but the links has changed. -/
def OnlyLinks (s t : State) : Prop := t = { s with linkA := t.linkA, linkB := t.linkB }

/-- The intake of a link has handed this command on, with or without the overrun mark (R160, R163). -/
def Handed (m : Manager) (c : Instr) (overrun : Bool) (s : State) : Prop := (s.link m).intake = .handing c overrun

/-- The row of a command is void: a reset dropped the command from HANDING before its owner took it (R168; notes/assumptions/6). -/
def Voided (m : Manager) (c : Instr) (s : State) : Prop :=
  (s.link m).dropped = some c ∧ ∀ k ov, (s.link m).intake ≠ .handing k ov

/-- The mark of a dropped command is spent, and nothing else happens (notes/assumptions/6). -/
def spent (m : Manager) (s : State) : State := s.modLink m fun l => { l with dropped := none }

/-- A command of a link leaves the part in `t` but for the link, to which its owner's status goes back without data (R163).
What `answer` does with it is `Obligations.AnswerReachesTheLink`. -/
def Answers (l : Manager) (c : Instr) (s t : State) (st : Status) : Prop :=
  exec c s = .next (answer l c s (t, { status := st, data := [] }))

/-- A read changes nothing but the link, to which the status OK and this data go back (R163, R166). -/
def Reports (l : Manager) (c : Instr) (s : State) (data : List Byte) : Prop :=
  exec c s = .next (answer l c s (s, { status := .ok, data := data }))

/-- Reply data holds these bytes at an offset (Table 11.8). -/
def FieldAt (data : List Byte) (offset : Nat) (bytes : List Byte) : Prop :=
  (data.drop offset).take bytes.length = bytes

/-- What power-on reset and RESET_PART both set: every stream, pair, source and counter at the values that R39, R68, R75, R102,
R127, R141 and R155 give, the tables empty, and the deadline clock 0 (R70). The sensed level of CALM_N is left open. -/
def AtReset (t : State) : Prop :=
  t.clock = 0 ∧ t.commitQueue = [] ∧ t.tap.lookup = []
    ∧ t.tap.writeCount = 0 ∧ t.tap.readCount = 0 ∧ t.tap.outsideCount = 0 ∧ t.tap.unobservedCount = 0
    ∧ t.tap.discontinuities = 0
    ∧ t.tap.port.phase = .idle ∧ t.tap.port.line = none ∧ t.tap.port.voidMark = false
    ∧ (∀ n : StreamIx,
        (t.stream n).desc =
            { role := .request, base := 0, slotSize := .bytes64, slotCount := 16, marker := 0, commitMode := .header
              lapPolarity := .normal, reorderSpan := 1, silenceLimit := 0, assemblyLimit := 1000, minInterval := 0
              maxInterval := 10000, missLimit := 3, fence := false }
          ∧ (t.stream n).enabled = false ∧ (t.stream n).assemblies = [] ∧ (t.stream n).seq = .unsynchronised
          ∧ (t.stream n).overrunPending = false ∧ (t.stream n).silent = false ∧ (t.stream n).lastAccepted = 0
          ∧ (t.stream n).counters =
              { accepted := 0, dropped := 0, gaps := 0, gapTotal := 0, lost := 0, torn := 0, abandoned := 0
                unassembled := 0, silences := 0 }
          ∧ (t.stream n).pulse =
              { last := none, timer := .stopped, missCount := 0, pulses := 0, early := 0, missed := 0 })
    ∧ (∀ p : PairIx,
        (t.pair p).desc =
            { requestStream := none, completionStream := none, quota := 256, holdLimit := 2, gm := 3, gd := 2, k := 4
              tfloor := 50, tceil := 100000, armingCount := 16, window := 10000, toleranceShift := 6
              confirmCount := 3, quiesceLimit := 3000000, expectFetch := false, echoDeadline := 5000
              fence := false }
          ∧ (t.pair p).health = .disabled ∧ (t.pair p).openList = [] ∧ (t.pair p).lateList = []
          ∧ (t.pair p).counters =
              { tracked := 0, completed := 0, late := 0, lost := 0, discarded := 0, orphans := 0, untracked := 0 }
          ∧ (t.pair p).est = { m16 := 0, d16 := 0, n := 0, lastSample := none } ∧ (t.pair p).timeout = 100000
          ∧ (t.pair p).hev =
              { window := none, history := [], lastClass := none, confirm := 0, promotionPending := false
                quiesceStart := none
                counters := { good := 0, bad := 0, idle := 0, suspects := 0, failures := 0, quiesces := 0
                              resumes := 0, overruns := 0, ignored := 0 } })
    ∧ t.echo =
        { entries := [], probeQueue := [], fetchCheck := false, waitLimit := 200, prb := .idle, single := .idle
          counters := { confirmed := 0, mismatched := 0, overtaken := 0, unread := 0, starved := 0, dropped := 0
                        unwatched := 0, withdrawn := 0, flushed := 0 } }
    ∧ t.vrd =
        { settings := { channelLossLimit := 1000, fenceOnLoss := false, alarmDrive := false, holdoffFactor := 2
                        releaseSettle := 20000, holdoffLimit := 300000 }
          verdict := .normal, factor := 1, triggers := { pairs := 0, streams := 0, channelLoss := false }
          origin := none, sensedHigh := t.vrd.sensedHigh
          counters := { faults := 0, triggers := 0, holdoffs := 0, limitPasses := 0, channelLosses := 0
                        boardClears := 0 } }
    ∧ (∀ i : SourceIx, t.source i =
        { priority := 0, enable := false, target := .A, trigger := .latched, pending := false, causes := 0
          count := 0, firstStamp := none, lastStamp := none })
    ∧ t.iar.thresholdA = 0 ∧ t.iar.thresholdB = 0

/-- The start of a discontinuity as every block takes it (R13, R15, R40, R69, R103, R107, R128): from `s` to `t`. Nothing but what
is named here changes. A HELD window has no start time of account; the model leaves the old one in it. -/
def Discontinued (s t : State) : Prop :=
  t = { s with
      commitQueue := [], streams := t.streams, pairs := t.pairs
      tap := { s.tap with
        openRows := t.tap.openRows, discontinuities := satInc s.tap.discontinuities
        port := if s.tap.port.line.isSome then { s.tap.port with phase := .releasing, line := none } else s.tap.port }
      echo := { s.echo with
        entries := [], probeQueue := [], prb := .idle
        single := match s.echo.single with | .busy a => .done a .overtaken | x => x
        counters := { s.echo.counters with flushed := t.echo.counters.flushed } }
      vrd := { s.vrd with triggers := { s.vrd.triggers with streams := 0 } } }
    ∧ (∀ b : BankAddr, t.tap.bank b = .closed)
    ∧ t.echo.counters.flushed.toNat = min (s.echo.counters.flushed.toNat + s.echo.entries.length) 65535
    ∧ (∀ n : StreamIx, t.stream n =
        { s.stream n with
          assemblies := [], seq := .unsynchronised, overrunPending := false, silent := false
          pulse := { (s.stream n).pulse with
            missCount := 0, last := none
            timer := match (s.stream n).pulse.timer with | .stopped => .stopped | _ => .held } })
    ∧ ∀ p : PairIx,
        let q := s.pair p
        let counters := { q.counters with
          discarded := q.counters.discarded + BitVec.ofNat 32 (q.openList.length + q.lateList.length) }
        let held := q.hev.window.map fun w => { held := true, start := w.start, paired := 0, adverse := 0, taint := false }
        t.pair p = match q.health with
          | .healthy | .watch | .suspect | .quiesced =>
            { q with
              health := .healthy, openList := [], lateList := [], counters := counters
              hev := { q.hev with
                window := held, history := [], confirm := 0, promotionPending := false, quiesceStart := none } }
          | .failed => { q with openList := [], lateList := [], counters := counters, hev := { q.hev with window := held } }
          | .draining | .disabled =>
            { q with health := .disabled, openList := [], lateList := [], counters := counters }

/-- The end of a discontinuity (R13, R41, R103, R107): the silence timers of the enabled streams, the held pulse interval timers and
the HELD windows start afresh, and nothing else changes. -/
def Restarted (s t : State) : Prop :=
  t = { s with streams := t.streams, pairs := t.pairs }
    ∧ (∀ n : StreamIx, t.stream n = (if (s.stream n).enabled then
        { s.stream n with
          lastAccepted := s.clock
          pulse := { (s.stream n).pulse with
            timer := match (s.stream n).pulse.timer with | .held => .running s.clock | x => x } }
        else s.stream n))
    ∧ ∀ p : PairIx, t.pair p =
        { s.pair p with hev := { (s.pair p).hev with
            window := (s.pair p).hev.window.map fun w =>
              if w.held then { held := false, start := s.clock, paired := 0, adverse := 0, taint := false } else w } }

/-! ### Writes to slots and commits -/

/-- The bytes of its line that a burst transfers (R4). -/
def sentBytes : BurstLength → ByteMask
  | .full => BitVec.allOnes 64
  | .choppedLow => 0x00000000FFFFFFFF#64
  | .choppedHigh => 0xFFFFFFFF00000000#64

/-- The write `b` at place `which` of those in flight is to a line of a slot of an enabled stream, and is presented (R4, R7,
R12). -/
def WriteTo (s : State) (which : Nat) (b : InFlight) (n : StreamIx) (slot : Nat) (line : Fin 8) : Prop :=
  s.tap.writesInFlight[which]? = some b ∧ s.tap.brstAsserted = false ∧ (s.stream n).enabled = true
    ∧ slot < (s.stream n).desc.slotCount ∧ line.1 < (s.stream n).desc.slotSize.lines
    ∧ b.line.toNat = (s.stream n).desc.base + slot * (s.stream n).desc.slotSize.bytes + 64 * line.1

/-- The header in the first 16 bytes of a line (R170, Table 11.1). -/
def headerIn (d : LineData) : Header :=
  { marker := d[1] ++ d[0], kind := d[2], flags := d[3], tag := d[7] ++ d[6] ++ d[5] ++ d[4]
    sequence := d[11] ++ d[10] ++ d[9] ++ d[8], spare := d[15] ++ d[14] ++ d[13] ++ d[12] }

/-- The cause of the first of the record checks before the sequence check that a header fails (R21, R29, R31, Table 3.3). -/
def dropCause (d : StreamDesc) (slot : Nat) (h : Header) : Option Cause :=
  let lap := xor (decide (h.sequence.toNat / d.slotCount % 2 = 1)) (decide (d.lapPolarity = .inverted))
  let kindFits : Bool := match d.role with
    | .request => decide (h.kind = 1)
    | .completion => decide (h.kind = 1 ∨ h.kind = 2 ∨ h.kind = 3)
    | .pulse => decide (h.kind = 4)
  if h.marker ≠ d.marker then some .markerBad
  else if kindFits = false then some .kindBad
  else if h.sequence.toNat % d.slotCount ≠ slot then some .slotMismatch
  else if h.flags.getLsbD 0 ≠ lap then some .lapStale
  else none

/-- A record is dropped (R30): counted, its cause posted, and nothing else of the stream `x` or the queue changes. -/
def Dropped (n : StreamIx) (x : Stream) (c : Cause) (s t : State) : Prop :=
  Posted (streamSource n) c s t ∧ t.commitQueue = s.commitQueue
    ∧ t.stream n = { x with counters := { x.counters with dropped := x.counters.dropped + 1 } }

/-- A record is accepted with the sequence state `q` (R32, R35, R36): counted, with the gap that it shows, and offered to the Commit
Queue; with the queue full it is lost, and COMMIT_OVERRUN is posted. -/
def Accepted (n : StreamIx) (x : Stream) (r : Record) (q : SeqState) (gap : Option (BitVec 32)) (s t : State) : Prop :=
  let c := x.counters
  let counted : StreamCounters := match gap with
    | none => { c with accepted := c.accepted + 1 }
    | some g => { c with accepted := c.accepted + 1, gaps := satInc c.gaps, gapTotal := c.gapTotal + g }
  if s.commitQueue.length < 4 then
    (match gap with
      | none => t.iar = s.iar
      | some _ => Posted (streamSource n) .seqGap s t)
      ∧ t.commitQueue = s.commitQueue ++ [{ r with gap := gap, overrun := x.overrunPending }]
      ∧ t.stream n = { x with
          seq := q, lastAccepted := s.clock, silent := false, overrunPending := false, counters := counted }
  else
    (match gap with
      | none => Posted commitSource .commitOverrun s t
      | some _ => PostedAt (streamSource n) .seqGap s t ∧ PostedAt commitSource .commitOverrun s t
          ∧ (∀ j : SourceIx, j ≠ streamSource n → j ≠ commitSource → t.source j = s.source j)
          ∧ t.iar.thresholdA = s.iar.thresholdA ∧ t.iar.thresholdB = s.iar.thresholdB)
      ∧ t.commitQueue = s.commitQueue
      ∧ t.stream n = { x with
          seq := q, lastAccepted := s.clock, silent := false, overrunPending := true
          counters := { counted with lost := satInc c.lost } }

/-- A commit of the assembly `a` with the header `h` on the stream `x` (R29, R34): the checks in their order, the sequence check
last; the first that fails drops the record. The record's fields are those of R34. -/
def Committed (n : StreamIx) (x : Stream) (a : Assembly) (h : Header) (s t : State) : Prop :=
  match dropCause x.desc a.slot h with
  | some c => Dropped n x c s t
  | none =>
    let r : Record :=
      { stream := n, slot := a.slot
        kind := if h.kind = 1 then .work else if h.kind = 2 then .quiesce else if h.kind = 3 then .resume else .pulse
        flags := h.flags, tag := h.tag, sequence := h.sequence, commitTime := s.clock, signature := a.signature
        certain := a.certain, gap := none, overrun := false }
    match checkSequence x.desc.reorderSpan x.seq h.sequence with
    | .stale => Dropped n x .seqStale s t
    | .accepted q => Accepted n x r q none s t
    | .gap q g => Accepted n x r q (some g) s t

/-- A TORN case on the stream `x` (R24): counted and posted. -/
def Torn (n : StreamIx) (x : Stream) (s t : State) : Prop :=
  Posted (streamSource n) .torn s t ∧ t.commitQueue = s.commitQueue
    ∧ t.stream n = { x with counters := { x.counters with torn := satInc x.counters.torn } }

/-! ### The retirement of an echo entry -/

/-- Should this entry be PROBING, the PRB has no line to take in hand once it is retired from among `rest` (R119). -/
def PrbRests (e : EchoEntry) (rest : List EchoEntry) (s : State) : Prop :=
  e.status = .probing →
    s.echo.single.isBusy = false ∧ s.echo.probeQueue = [] ∧ ∀ f ∈ rest, f.status ≠ .probing

/-- The PRB when this entry is retired (R122): a line in hand for a PROBING entry is dropped in REQUESTING, and takes the discard
mark in READING. -/
def givenUp (e : EchoEntry) : PrbState → PrbState
  | .idle => .idle
  | .requesting l => if e.status = .probing ∧ l.purpose = .currentEntry then .idle else .requesting l
  | .reading l =>
    if e.status = .probing ∧ l.purpose = .currentEntry then .reading { l with discard := true } else .reading l

/-- The probe port when this entry is retired (R15, R122): a line for it that the port holds in REQUESTING or RELEASING is
withdrawn. -/
def withdrawn (e : EchoEntry) (prb : PrbState) (port : ProbePort) : ProbePort :=
  match prb with
  | .requesting l =>
    if e.status = .probing ∧ l.purpose = .currentEntry ∧ port.line.isSome ∧ port.phase ≠ .reading then
      { port with phase := .releasing, line := none }
    else port
  | .idle | .reading _ => port

/-- The ECH and the PRB when this entry is retired, with the entries `rest` left (R108, R116, R122); its outcome is counted
beside. -/
def retired (e : EchoEntry) (rest : List EchoEntry) (x : Echo) : Echo :=
  { x with
    entries := rest, prb := givenUp e x.prb
    probeQueue := if e.status = .queued then x.probeQueue.erase { stream := e.stream, slot := e.slot } else x.probeQueue }

/-- The echo list when the COR hands a completion record of a pair to the ECH (R59, R109, R110, R122): from `s`, in which the record
has been matched, to `t`. With 64 entries on the list the oldest is dropped first. -/
def HandedToEcho (p : PairIx) (r : Record) (s t : State) : Prop :=
  let entry : EchoEntry :=
    { pair := p, stream := r.stream, slot := r.slot
      slotBase := BitVec.ofNat 36 ((s.stream r.stream).desc.base + r.slot * (s.stream r.stream).desc.slotSize.bytes)
      written := r.certain, expected := r.signature, commitTime := r.commitTime, readMask := 0, readSum := 0
      status := .watching }
  let watched := (s.pair p).desc.expectFetch = true ∧ r.certain ≠ 0
  ((s.pair p).desc.expectFetch = false → t = s)
    ∧ ((s.pair p).desc.expectFetch = true → r.certain = 0 → t = { s with echo := { s.echo with
        counters := { s.echo.counters with unwatched := satInc s.echo.counters.unwatched } } })
    ∧ (watched → s.echo.entries.length < 64 →
        t = { s with echo := { s.echo with entries := s.echo.entries ++ [entry] } })
    ∧ ∀ oldest others, watched → 64 ≤ s.echo.entries.length → s.echo.entries = oldest :: others →
        t = { s with
            iar := t.iar, tap := { s.tap with port := withdrawn oldest s.echo.prb s.tap.port }
            echo := { retired oldest (others ++ [entry]) s.echo with
              counters := { s.echo.counters with dropped := satInc s.echo.counters.dropped } } }
          ∧ Posted echoSource .echoDropped s t

/-- The PRB takes this line in hand and hands it to the port, if that is IDLE (R14, R119): it asserts PREQ, or waits in RELEASING
for a PGNT that is still high. -/
def lineTaken (l : LineInHand) (s : State) : State :=
  { s with
    echo := { s.echo with prb := .requesting l }
    tap := { s.tap with port := if s.tap.port.phase = .idle then
        { s.tap.port with line := some l.address, phase := if s.tap.port.pgnt then .releasing else .requesting }
      else s.tap.port } }

/-! ### Fence triggers and promotions -/

/-- A pair whose promotion is pending, and whose fence trigger would join the set at its promotion (R95, R131). -/
def promotesTrigger (s : State) (p : PairIx) : Bool :=
  (s.pair p).hev.promotionPending && (s.pair p).desc.fence && !s.vrd.triggers.has (.pair p)

/-- A pair that becomes FAILED (R94). -/
def failedPair (q : Pair) : Pair :=
  { q with
    health := .failed
    hev := { q.hev with
      confirm := 0, promotionPending := false
      counters := { q.hev.counters with failures := satInc q.hev.counters.failures } } }

/-- Every pending pair has become FAILED, with its cause, and no other pair nor its source has changed (R94, R95). -/
def PendingFailed (s t : State) : Prop :=
  ∀ p : PairIx,
    if (s.pair p).hev.promotionPending then t.pair p = failedPair (s.pair p) ∧ PostedAt (pairSource p) .failed s t
    else t.pair p = s.pair p ∧ t.source (pairSource p) = s.source (pairSource p)

/-- The verdict moves from HOLDOFF to FAULT by the trigger `m` (R133): the origin is recorded, BOARD_FAULT posted, BFLT asserted, and
the hold-off ends. Every T is recomputed with F 1 (R81) and every pending pair becomes FAILED, its trigger joining the set (R95,
R131). Where no T changes by that, no entry is looked at, and the pairs and their sources are given in full. -/
def FaultFromHoldoff (m : Trigger) (s t : State) : Prop :=
  t = { s with
      iar := t.iar, pairs := t.pairs
      vrd := { s.vrd with
        verdict := .fault, factor := 1, triggers := t.vrd.triggers
        origin := some { trigger := m, clock := s.clock, stamp := s.stamp }
        counters := { s.vrd.counters with
          faults := satInc s.vrd.counters.faults, triggers := t.vrd.counters.triggers } } }
    ∧ bflt t = true ∧ drivingCalm t = s.vrd.settings.alarmDrive ∧ PostedAt boardSource .boardFault s t
    ∧ (∀ k : Trigger, t.vrd.triggers.has k = true ↔
        s.vrd.triggers.has k = true ∨ k = m ∨ ∃ p : PairIx, k = .pair p ∧ promotesTrigger s p = true)
    ∧ t.vrd.counters.triggers.toNat = min 65535 (s.vrd.counters.triggers.toNat
        + (allPairs.filter fun p => promotesTrigger s p && decide (m ≠ .pair p)).length)
    ∧ (∀ p : PairIx, (t.pair p).desc = (s.pair p).desc ∧ (t.pair p).est = (s.pair p).est
        ∧ (t.pair p).timeout = timeoutOf (s.pair p).desc (s.pair p).est 1
        ∧ (t.pair p).hev.promotionPending = false
        ∧ ((s.pair p).hev.promotionPending = true → (t.pair p).health = .failed)
        ∧ ((s.pair p).hev.promotionPending = false → (s.pair p).health ≠ .draining →
            (t.pair p).health = (s.pair p).health))
    ∧ (∀ j : SourceIx, j ≠ boardSource → (∀ p : PairIx, j ≠ pairSource p) → t.source j = s.source j)
    ∧ t.iar.thresholdA = s.iar.thresholdA ∧ t.iar.thresholdB = s.iar.thresholdB
    ∧ ((∀ p : PairIx, timeoutOf (s.pair p).desc (s.pair p).est 1 = (s.pair p).timeout) → PendingFailed s t)

/-- A fence trigger begins to stand (R131): it joins the standing-trigger set once. In FAULT it is counted, and the verdict and the
fault origin stay. In NORMAL and in HOLDOFF it moves the verdict to FAULT (R133). One that is in the set already changes nothing
(the model's reading: notes/assumptions/29). -/
def TriggerJoins (m : Trigger) (s t : State) : Prop :=
  let joined : Prop := ∀ k : Trigger, t.vrd.triggers.has k = true ↔ s.vrd.triggers.has k = true ∨ k = m
  (s.vrd.triggers.has m = true → t = s)
    ∧ (s.vrd.triggers.has m = false → s.vrd.verdict = .fault → joined
        ∧ t = { s with vrd := { s.vrd with
            triggers := t.vrd.triggers
            counters := { s.vrd.counters with triggers := satInc s.vrd.counters.triggers } } })
    ∧ (s.vrd.triggers.has m = false → s.vrd.verdict = .normal → joined
        ∧ t = { s with
            iar := t.iar
            vrd := { s.vrd with
              verdict := .fault, triggers := t.vrd.triggers
              origin := some { trigger := m, clock := s.clock, stamp := s.stamp }
              counters := { s.vrd.counters with faults := satInc s.vrd.counters.faults } } }
        ∧ bflt t = true ∧ drivingCalm t = s.vrd.settings.alarmDrive ∧ Posted boardSource .boardFault s t)
    ∧ ∀ h, s.vrd.triggers.has m = false → s.vrd.verdict = .holdoff h → FaultFromHoldoff m s t

/-- The read at place `which` of those in flight is of a line of a slot of an enabled stream, and is presented (R5, R7). -/
def WholeReadOf (s : State) (which : Nat) (n : StreamIx) (slot : Nat) (line : Fin 8) : Prop :=
  ∃ b, s.tap.readsInFlight[which]? = some b ∧ b.length = .full
    ∧ s.tap.brstAsserted = false ∧ (s.stream n).enabled = true
    ∧ slot < (s.stream n).desc.slotCount ∧ line.1 < (s.stream n).desc.slotSize.lines
    ∧ b.line.toNat = (s.stream n).desc.base + slot * (s.stream n).desc.slotSize.bytes + 64 * line.1

/-- A line lies in no window of an enabled stream (R7). -/
def OutsideWindows (s : State) (a : LineAddr) : Prop :=
  ∀ n : StreamIx, (s.stream n).enabled = true →
    ¬ ((s.stream n).desc.base ≤ a.toNat
      ∧ a.toNat < (s.stream n).desc.base + (s.stream n).desc.slotCount * (s.stream n).desc.slotSize.bytes)

/-- The record at the head of the Commit Queue, of a stream of a pair that the COR serves (R50). -/
def HeadRecord (s : State) (p : PairIx) (r : Record) (rest : List Record) : Prop :=
  s.commitQueue = r :: rest ∧ s.pairOf r.stream = some p ∧ (s.pair p).health.active = true

/-! ### Invariants -/

/-- The Commit Queue holds at most four records (R36), the echo list at most 64 entries (R108), no stream more than four
assemblies (R22), the Pairing Table at most 2048 entries (R48), and no link more than two characters (R157). -/
def TablesFit (s : State) : Prop :=
  s.commitQueue.length ≤ 4 ∧ s.echo.entries.length ≤ 64
    ∧ (∀ n : StreamIx, (s.stream n).assemblies.length ≤ 4)
    ∧ entriesInUse s ≤ 2048
    ∧ s.linkA.buffer.length ≤ 2 ∧ s.linkB.buffer.length ≤ 2

/-- A stream has at most one open assembly for each slot (R22). -/
def AssembliesDistinct (s : State) : Prop :=
  ∀ n : StreamIx, ((s.stream n).assemblies.map Assembly.slot).Nodup

/-- The sequence state's place 0 is clear whenever the stream is synchronised (R32). -/
def PlaceZeroClear (s : State) : Prop :=
  ∀ n : StreamIx, match (s.stream n).seq with
    | .unsynchronised => True
    | .synchronised _ places => places.getLsbD 0 = false

/-- The window lookup holds the windows of the enabled streams and of no others (R6), and no two of them overlap (R18). -/
def LookupHolds (s : State) : Prop :=
  s.tap.lookup = enabledWindows s
    ∧ ∀ n m : StreamIx, n ≠ m → (s.stream n).enabled = true → (s.stream m).enabled = true →
        (windowOf n (s.stream n).desc).meets (windowOf m (s.stream m).desc) = false

/-- The streams that pair descriptors name have the role that the field asks for (R43), and a stream is a member of at most
one pair (R42). -/
def MembersHold (s : State) : Prop :=
  (∀ (p : PairIx) (n : StreamIx), (s.pair p).desc.requestStream = some n → (s.stream n).desc.role = .request)
    ∧ (∀ (p : PairIx) (n : StreamIx), (s.pair p).desc.completionStream = some n → (s.stream n).desc.role = .completion)
    ∧ ∀ (p r : PairIx) (n : StreamIx),
        ((s.pair p).desc.requestStream = some n ∨ (s.pair p).desc.completionStream = some n) →
        ((s.pair r).desc.requestStream = some n ∨ (s.pair r).desc.completionStream = some n) → p = r

/-- A DISABLED pair holds no entries (R49), a DRAINING pair holds one at least (R46, R47), and no pair holds more than its
quota (R53). -/
def EntriesHold (s : State) : Prop :=
  ∀ p : PairIx,
    ((s.pair p).health = .disabled → (s.pair p).openList = [] ∧ (s.pair p).lateList = [])
      ∧ ((s.pair p).health = .draining → 0 < (s.pair p).entryCount)
      ∧ (s.pair p).entryCount ≤ (s.pair p).desc.quota

/-- Each pair holds a given tag in at most one entry across its open and late lists (R52). -/
def TagsDistinct (s : State) : Prop :=
  ∀ p : PairIx, ((s.pair p).openList.map Entry.tag ++ (s.pair p).lateList.map fun e => e.entry.tag).Nodup

/-- The balance of a pair's counters (R66), modulo 2^32. -/
def Pair.balanced (q : Pair) : Prop :=
  q.counters.tracked = q.counters.completed + q.counters.late + q.counters.lost + q.counters.discarded
    + BitVec.ofNat 32 q.openList.length + BitVec.ofNat 32 q.lateList.length

/-- Every pair's counters balance, and a DISABLED pair holds no entries (R49, R66). -/
def CountersBalance (s : State) : Prop :=
  ∀ p : PairIx, (s.pair p).balanced
    ∧ ((s.pair p).health = .disabled → (s.pair p).openList = [] ∧ (s.pair p).lateList = [])

/-- Every pair's T is the one that its estimator, its descriptor and F give (R80, R81, R82), and F is 1 outside HOLDOFF and
the hold-off factor in it (R81, R135). -/
def TimeoutsHold (s : State) : Prop :=
  (∀ p : PairIx, (s.pair p).timeout = timeoutOf (s.pair p).desc (s.pair p).est s.vrd.factor)
    ∧ s.vrd.factor = (match s.vrd.verdict with | .holdoff _ => s.vrd.settings.holdoffFactor | _ => 1)

/-- What the HEV keeps of a pair agrees with its health: a window in exactly the states of R88, HELD exactly while BRST_N is
asserted (R103); a quiesce timer in QUIESCED alone (R100); confirm counter and promotion pending in SUSPECT alone
(section 6.3); at most three samples in the history (R92). -/
def HealthHolds (s : State) : Prop :=
  ∀ p : PairIx, let q := s.pair p
    (q.hev.window.isSome = q.health.enabled)
      ∧ (∀ w, q.hev.window = some w → w.held = s.tap.brstAsserted)
      ∧ (q.hev.quiesceStart.isSome = decide (q.health = .quiesced))
      ∧ (q.health ≠ .suspect → q.hev.confirm = 0 ∧ q.hev.promotionPending = false)
      ∧ q.hev.history.length ≤ 3

/-- The triggers that stand: none outside FAULT (R139); a pair's exactly while the pair is FAILED with fence yes (R96); channel
loss exactly while it stands with fence-on-loss on (R131, R132). -/
def TriggersHold (s : State) : Prop :=
  (s.vrd.verdict ≠ .fault → s.vrd.triggers.isEmpty = true)
    ∧ (∀ p : PairIx, s.vrd.triggers.has (.pair p) = (decide ((s.pair p).health = .failed) && (s.pair p).desc.fence))
    ∧ s.vrd.triggers.channelLoss = (lossStands s && s.vrd.settings.fenceOnLoss)

/-- The pulse triggers that stand: a stream's exactly while its miss count is at or above its miss limit and its fence is yes (R106),
with what keeps it so: a miss limit of at least 1 (Table 3.1), a miss count of at most 15 (R104), a disabled stream with no
miss and its pulse interval timer stopped (R104), and in the Commit Queue no record of a disabled stream (R19). -/
def PulseTriggersHold (s : State) : Prop :=
  (∀ r ∈ s.commitQueue, (s.stream r.stream).enabled = true)
    ∧ ∀ n : StreamIx, let x := s.stream n
        s.vrd.triggers.has (.stream n) = (x.desc.fence && decide (x.desc.missLimit ≤ x.pulse.missCount))
          ∧ 1 ≤ x.desc.missLimit ∧ x.pulse.missCount ≤ 15
          ∧ (x.enabled = false → x.pulse.missCount = 0 ∧ x.pulse.timer = .stopped)

/-- While BRST_N is asserted the part holds nothing of the traffic before it: no assembly, no record, no entry of the Pairing
Table or of the echo list, and no line in hand (R40, R69, R128). -/
def BoardResetQuiet (s : State) : Prop :=
  s.tap.brstAsserted = true →
    s.commitQueue = [] ∧ (∀ n : StreamIx, (s.stream n).assemblies = [])
      ∧ (∀ p : PairIx, (s.pair p).openList = [] ∧ (s.pair p).lateList = [])
      ∧ s.echo.entries = [] ∧ s.echo.probeQueue = [] ∧ s.echo.prb = .idle

/-- The cause set, the count and the two stamps of a source are present together or cleared together, and a source with a count
of 1 or more is pending (R143). -/
def SourcesHold (s : State) : Prop :=
  ∀ i : SourceIx, let x := s.source i
    (x.count = 0 ∧ x.causes = 0 ∧ x.firstStamp = none ∧ x.lastStamp = none)
      ∨ (x.count ≠ 0 ∧ x.causes ≠ 0 ∧ x.firstStamp.isSome = true ∧ x.lastStamp.isSome = true ∧ x.pending = true)

/-- A stream descriptor's fields lie in the values of Table 3.1. -/
def StreamDesc.inRange (d : StreamDesc) : Prop :=
  d.base % 4096 = 0 ∧ slotCountOk d.slotCount = true ∧ d.base + d.slotCount * d.slotSize.bytes ≤ 2 ^ 36
    ∧ 1 ≤ d.reorderSpan ∧ d.reorderSpan ≤ 4 ∧ d.silenceLimit ≤ 16777215
    ∧ 10 ≤ d.assemblyLimit ∧ d.assemblyLimit ≤ 65535 ∧ d.minInterval ≤ 16777215
    ∧ 1 ≤ d.maxInterval ∧ d.maxInterval ≤ 16777215 ∧ d.minInterval ≤ d.maxInterval
    ∧ 1 ≤ d.missLimit ∧ d.missLimit ≤ 15

/-- A pair descriptor's fields lie in the values of Table 4.1. -/
def PairDesc.inRange (d : PairDesc) : Prop :=
  1 ≤ d.quota ∧ d.quota ≤ 2048 ∧ d.holdLimit ≤ 7 ∧ 1 ≤ d.gm ∧ d.gm ≤ 6 ∧ 1 ≤ d.gd ∧ d.gd ≤ 6 ∧ 1 ≤ d.k ∧ d.k ≤ 15
    ∧ 1 ≤ d.tfloor ∧ d.tfloor ≤ d.tceil ∧ d.tceil ≤ 1048575 ∧ 1 ≤ d.armingCount ∧ d.armingCount ≤ 64
    ∧ 1000 ≤ d.window ∧ d.window ≤ 65535 ∧ d.toleranceShift ≤ 15 ∧ 1 ≤ d.confirmCount ∧ d.confirmCount ≤ 15
    ∧ 100 ≤ d.quiesceLimit ∧ d.quiesceLimit ≤ 16777215 ∧ 10 ≤ d.echoDeadline ∧ d.echoDeadline ≤ 65535

/-- An estimator's values lie in their ranges (R75). -/
def Estimator.inRange (e : Estimator) : Prop :=
  e.m16 ≤ 16777200 ∧ e.d16 ≤ 16777200 ∧ e.n ≤ 255 ∧ ∀ l, e.lastSample = some l → l ≤ 1048575

/-- The verdict settings lie in the values of Table 8.1. -/
def VerdictSettings.inRange (v : VerdictSettings) : Prop :=
  v.channelLossLimit ≤ 65535 ∧ (v.holdoffFactor = 1 ∨ v.holdoffFactor = 2 ∨ v.holdoffFactor = 4)
    ∧ 1 ≤ v.releaseSettle ∧ v.releaseSettle ≤ 65535 ∧ v.holdoffLimit ≤ 16777215

/-- Every configured or learned value lies in the range that the manual gives it. -/
def RangesHold (s : State) : Prop :=
  (∀ n : StreamIx, (s.stream n).desc.inRange ∧ (s.stream n).pulse.missCount ≤ 15)
    ∧ (∀ p : PairIx, (s.pair p).desc.inRange ∧ (s.pair p).est.inRange
        ∧ 1 ≤ (s.pair p).timeout ∧ (s.pair p).timeout ≤ 4194300)
    ∧ s.vrd.settings.inRange ∧ (s.vrd.factor = 1 ∨ s.vrd.factor = 2 ∨ s.vrd.factor = 4)
    ∧ (∀ i : SourceIx, (s.source i).priority ≤ 15) ∧ s.iar.thresholdA ≤ 15 ∧ s.iar.thresholdB ≤ 15
    ∧ 1 ≤ s.echo.waitLimit ∧ s.echo.waitLimit ≤ 65535 ∧ s.stamp.tick ≤ 9999 ∧ s.tap.absence ≤ 65535

/-- A frame being received: LEN within 2..60, fewer characters taken than LEN, and the running sum is that of LEN and the
characters taken (R159). -/
def Frame.holds (f : Frame) : Prop :=
  2 ≤ f.len ∧ f.len ≤ 60 ∧ f.count < f.len ∧ f.chars.length = f.count
    ∧ f.sum = BitVec.ofNat 8 f.len + sumBytes f.chars

/-- A link's intake is DESELECTED or ending a reply while its selection is, and a frame in RECEIVING is kept as R159 gives. -/
def Link.holds (l : Link) : Prop :=
  (l.selection = .deselected → l.intake = .deselected ∨ ∃ k, l.intake = .replying k)
    ∧ ∀ f, l.intake = .receiving f → f.holds

/-- Both links hold. -/
def LinksHold (s : State) : Prop := s.linkA.holds ∧ s.linkB.holds

end Sys2Proof.Machine
end

