-- ==== Sys2Proof/Certificates/Slice0/Obligations.lean ====
section
/-!
DEFINITION. The statements for the provers, in the order of OBLIGATIONS.json: the step and the whole machine, the invariants that
every step keeps, the frames of the links, and then what each command does, family by family in the order of the opcode table.
A statement of a command taken from a link says where the part is left and which answer the owner returns;
`Obligations.AnswerReachesTheLink` says what becomes of the answer.
-/

open Sys2Proof Sys2Proof.Machine

/-! ### The step and the whole machine -/

/-- The step runs the command at the front of the queue with the queue's rest, and with no command waiting the part idles (the queue
is the model's: notes/assumptions/3). -/
def Obligations.StepRunsTheFrontCommand : Prop :=
  (∀ (c : Instr) (s : State), step (s.withCommand c) = exec c s)
    ∧ (∀ (c : Instr) (rest : List Instr) (s : State), s.pending = c :: rest →
        step s = exec c { s with pending := rest })
    ∧ ∀ s : State, s.pending = [] → step s = .next s

/-- Every command completes in every state (R163: a command is taken whole). It leaves the commands that wait behind it alone, the two
resets too: the queue and that the resets keep it are the model's (notes/assumptions/3 and 6). -/
def Obligations.EveryCommandCompletes : Prop :=
  ∀ (c : Instr) (s : State), ∃ t, exec c s = .next t ∧ t.pending = s.pending

/-- POWER_ON_RESET puts every block at its power-on state, whatever went before it (R39, R68, R75, R102, R127, R141, R155,
R169). A command in HANDING is gone, and its row is void (the mark is the model's: notes/assumptions/6). -/
def Obligations.PowerOnResetSetsEveryBlock : Prop :=
  ∀ (straps : Straps) (s : State), ∃ t, exec (.powerOnReset straps) s = .next t ∧ AtReset t
    ∧ t.straps = straps ∧ t.stamp = { seconds := 0, tick := 0 } ∧ (∀ b : BankAddr, t.tap.bank b = .closed)
    ∧ t.tap.presence = .stopped ∧ t.tap.absence = 0 ∧ t.tap.brstAsserted = false ∧ t.vrd.sensedHigh = true
    ∧ (∀ m : Manager, (t.link m).selection = .deselected ∧ (t.link m).buffer = [] ∧ (t.link m).intake = .deselected
        ∧ (t.link m).tx = .idle ∧ (t.link m).errorCount = 0 ∧ (t.link m).frameCount = 0
        ∧ (t.link m).lastError = none ∧ ∀ c ov, Handed m c ov s → Voided m c t)
    ∧ bflt t = false ∧ drivingCalm t = false ∧ preq t = false
    ∧ attentionLow t .A = false ∧ attentionLow t .B = false

/-- RESET_PART puts every block at its power-on state but for what R168 keeps: the straps, the stamp clock, the open-row table,
the clock presence monitor, the judged level of BRST_N, the sensed level of CALM_N and the links' counts. Both links become
DESELECTED. A command that the other link has handed on is dropped, and its row is void (the mark is the model's:
notes/assumptions/6); a reply on that link stops. The carrying link sends the reply OK when the command arrived individually; an
overrun marked on it is counted (notes/assumptions/23). -/
def Obligations.ResetPartKeepsWhatItNames : Prop :=
  ∀ (l : Manager) (s : State), ¬ Voided l (.resetPart l) s → ∃ t, exec (.resetPart l) s = .next t ∧ AtReset t
    ∧ t.straps = s.straps ∧ t.stamp = s.stamp ∧ t.tap.openRows = s.tap.openRows
    ∧ t.tap.presence = s.tap.presence ∧ t.tap.absence = s.tap.absence ∧ t.tap.brstAsserted = s.tap.brstAsserted
    ∧ t.vrd.sensedHigh = s.vrd.sensedHigh
    ∧ (∀ m : Manager, (t.link m).selection = .deselected ∧ (t.link m).buffer = []
        ∧ (t.link m).frameCount = (s.link m).frameCount)
    ∧ (∀ m : Manager, m ≠ l → (t.link m).intake = .deselected
        ∧ (t.link m).errorCount = (s.link m).errorCount ∧ (t.link m).lastError = (s.link m).lastError
        ∧ (t.link m).tx = (match (s.link m).tx with | .sending _ => .finishing | x => x)
        ∧ ∀ c ov, Handed m c ov s → Voided m c t)
    ∧ ∀ ov, Handed l (.resetPart l) ov s →
        (t.link l).errorCount = (if ov then satInc (s.link l).errorCount else (s.link l).errorCount)
          ∧ (t.link l).lastError = (if ov then some .overrun else (s.link l).lastError)
          ∧ ((s.link l).selection = .selected → (t.link l).intake = .replying false
              ∧ (t.link l).tx = .sending ([0x02, 0x00, 0xFE].map fun b => LinkChar.make b false))
          ∧ ((s.link l).selection = .broadcast →
              (t.link l).intake = .deselected ∧ ∀ cs, (t.link l).tx ≠ .sending cs)

/-- Every invariant below holds right after power-on reset, whatever the straps. -/
def Obligations.ResetMeetsTheInvariants : Prop :=
  ∀ straps : Straps, let s := State.powerOn straps
    TablesFit s ∧ AssembliesDistinct s ∧ PlaceZeroClear s ∧ LookupHolds s ∧ MembersHold s ∧ EntriesHold s
      ∧ TagsDistinct s ∧ CountersBalance s ∧ TimeoutsHold s ∧ HealthHolds s ∧ TriggersHold s ∧ PulseTriggersHold s
      ∧ BoardResetQuiet s ∧ SourcesHold s ∧ RangesHold s ∧ LinksHold s

/-- The deadline clock rises by 1 at a tick boundary, is set to 0 by the two resets, and nothing else moves it (R70). The stamp
clock counts 10,000 ticks to the second, is set to 0 at power-on reset and loaded by a SET_TIME in range, and nothing else moves
it (R72, R73). The row of a command that a reset dropped is left out; it moves nothing (`Obligations.AnswerReachesTheLink`). -/
def Obligations.ClocksMove : Prop :=
  ∀ (c : Instr) (s : State), (∀ m, c.link? = some m → ¬ Voided m c s) → ∃ t, exec c s = .next t
    ∧ t.clock = (match c with
      | .tickBoundary _ => s.clock + 1
      | .powerOnReset _ | .resetPart _ => 0
      | _ => s.clock)
    ∧ t.stamp = (match c with
      | .tickBoundary _ =>
        if s.stamp.tick + 1 ≤ 9999 then { s.stamp with tick := s.stamp.tick + 1 }
        else { seconds := s.stamp.seconds + 1, tick := 0 }
      | .powerOnReset _ => { seconds := 0, tick := 0 }
      | .setTime _ sec tk => if tk.toNat ≤ 9999 then { seconds := sec, tick := tk.toNat } else s.stamp
      | _ => s.stamp)

/-- TICK_BOUNDARY moves the two clocks and, at a dead tick outside RUNNING with BRST_N released, the absence count; the other
judgements of the boundary are rows of their own (the model's choice: notes/assumptions/10). -/
def Obligations.TickBoundaryAdvances : Prop :=
  ∀ (live : Bool) (s : State), ∃ k, exec (.tickBoundary live) s = .next
      { s with
        clock := s.clock + 1
        stamp := if s.stamp.tick + 1 ≤ 9999 then { s.stamp with tick := s.stamp.tick + 1 }
          else { seconds := s.stamp.seconds + 1, tick := 0 }
        tap := { s.tap with absence := k } }
    ∧ k = (if live = false ∧ s.tap.presence ≠ .running ∧ s.tap.brstAsserted = false then
        min (s.tap.absence + 1) 65535 else s.tap.absence)

/-- A timed judgement that is not due changes nothing (R71; that its row may be sent at all times is the model's choice:
notes/assumptions/9). -/
def Obligations.NotDueChangesNothing : Prop :=
  ∀ (c : Instr) (s : State), EntriesHold s → timed c = true → dueNow s c = false → exec c s = .next s

/-! ### The invariants that every step keeps -/

/-- Every step keeps the tables within their sizes (R22, R36, R48, R108, R157). -/
def Obligations.StepKeepsTablesFit : Prop :=
  ∀ s t : State, TablesFit s → step s = .next t → TablesFit t

/-- Every step keeps a stream's assemblies one to a slot (R22) and place 0 of its bitmap clear (R32), the lookup the windows of the
enabled streams, no two of which overlap (R6, R18), and each pair's streams of the roles it was given and its own (R42, R43). -/
def Obligations.StepKeepsStreams : Prop :=
  (∀ s t : State, AssembliesDistinct s → step s = .next t → AssembliesDistinct t)
    ∧ (∀ s t : State, PlaceZeroClear s → step s = .next t → PlaceZeroClear t)
    ∧ (∀ s t : State, LookupHolds s → step s = .next t → LookupHolds t)
    ∧ ∀ s t : State, MembersHold s → step s = .next t → MembersHold t

/-- Every step keeps a DISABLED pair without entries, a DRAINING pair with one, and no pair above its quota (R47, R49, R53); a tag in
at most one entry of a pair (R52); and the balance of each pair's counters and entries (R66). -/
def Obligations.StepKeepsThePairingTable : Prop :=
  (∀ s t : State, EntriesHold s → step s = .next t → EntriesHold t)
    ∧ (∀ s t : State, TagsDistinct s → step s = .next t → TagsDistinct t)
    ∧ ∀ s t : State, CountersBalance s → step s = .next t → CountersBalance t

/-- Every step keeps each pair's T the one that its estimator, its descriptor and F give, and F the one that the verdict gives
(R80, R81, R82, R135). -/
def Obligations.StepKeepsTimeouts : Prop :=
  ∀ s t : State, TimeoutsHold s → step s = .next t → TimeoutsHold t

/-- Every step keeps what the HEV holds of a pair in agreement with its health (R88, R92, R100, R102, R103). -/
def Obligations.StepKeepsHealth : Prop :=
  ∀ s t : State, HealthHolds s → step s = .next t → HealthHolds t

/-- Every step keeps the standing-trigger set in agreement with what it stands for, the pairs' and channel loss (R96, R131, R132) and
the streams' (R106), and empty outside FAULT (R139); and the part empty of traffic while BRST_N is asserted (R12, R40, R69,
R128). -/
def Obligations.StepKeepsTriggersAndQuiet : Prop :=
  (∀ s t : State, TriggersHold s → step s = .next t → TriggersHold t)
    ∧ (∀ s t : State, PulseTriggersHold s → step s = .next t → PulseTriggersHold t)
    ∧ ∀ s t : State, BoardResetQuiet s → step s = .next t → BoardResetQuiet t

/-- Every step keeps the findings of each incident source present together or cleared together (R143), and each link's intake in
agreement with its selection and its frame with what was received (R158, R159). -/
def Obligations.StepKeepsSourcesAndLinks : Prop :=
  (∀ s t : State, SourcesHold s → step s = .next t → SourcesHold t)
    ∧ ∀ s t : State, LinksHold s → step s = .next t → LinksHold t

/-- Every step keeps every configured and learned value in its range (Tables 3.1, 4.1 and 8.1, R72, R75, R117, R143, R147). -/
def Obligations.StepKeepsRanges : Prop :=
  ∀ s t : State, RangesHold s → step s = .next t → RangesHold t


/-! ### The management links -/

/-- What becomes of the reply `r` that an owner returns for the command `c`, the part being left in `t` (R160, R163, R164). Where the
intake has handed `c` on and no address character is held: SELECTED, the intake is REPLYING and the transmitter sends the
characters of `r`; in BROADCAST nothing is sent, and the intake is SKIPPING after an overrun, else WAITING, where a held character
is taken as the LEN it is. An overrun is counted. A held address character abandons the reply before it is begun and sets the
selection. Nothing else changes. A row whose command the link has not handed on leaves the link as it is, and a void row has no
effect at all; that such rows are taken, and the records of the reply and of the drop, are the model's (notes/assumptions/5 and 6). Then
that the row of every command but RESET_PART, which has its own statement, ends in such an answer. -/
def Obligations.AnswerReachesTheLink : Prop :=
  (∀ (m : Manager) (c : Instr) (s t : State) (r : Reply),
    t.link m = s.link m → t.straps = s.straps →
    let u := answer m c s (t, r)
    let l := s.link m
    (Voided m c s → u = spent m s)
    ∧ (¬ Voided m c s → OnlyLinks t u ∧ (∀ k, k ≠ m → u.link k = t.link k)
      ∧ ((∀ ov, ¬ Handed m c ov s) → u.link m = { l with lastReply := some r })
      ∧ ∀ ov, Handed m c ov s →
        let counted : Link := { l with
          lastReply := some r, buffer := []
          errorCount := if ov then satInc l.errorCount else l.errorCount
          lastError := if ov then some .overrun else l.lastError }
        let taken (k : Link) : Link := match l.buffer.getLast? with | none => k | some ch => { k with lastTaken := ch.time }
        ((∀ ch ∈ l.buffer, ch.address = false) →
          (l.selection = .selected →
            u.link m = taken { counted with intake := .replying ov, tx := .sending r.chars })
          ∧ (l.selection = .broadcast → ov = true → u.link m = taken { counted with intake := .skipping })
          ∧ (l.selection = .broadcast → ov = false → l.buffer = [] → u.link m = { counted with intake := .waiting })
          ∧ (∀ ch, l.selection = .broadcast → ov = false → l.buffer = [ch] → ch.damaged = false →
              2 ≤ ch.value.toNat → ch.value.toNat ≤ 60 →
              let frame : Frame := { len := ch.value.toNat, count := 0, sum := ch.value, damaged := false, chars := [] }
              u.link m = taken { counted with intake := .receiving frame }))
        ∧ ∀ held ch, l.buffer = held ++ [ch] → (∀ d ∈ held, d.address = false) → ch.address = true → l.tx = .idle →
            l.selection = .selected ∨ l.selection = .broadcast ∧ (held = [] ∨ ov = true) →
            let selection : Selection := if ch.value.toNat = 63 then .broadcast
              else if ch.value.toNat = s.straps.stn.toNat then .selected else .deselected
            u.link m = taken { counted with
              selection := selection, intake := if selection = .deselected then .deselected else .waiting }))
  ∧ (∀ (m : Manager) (c : Instr) (s : State), c.link? = some m → Voided m c s → exec c s = .next (spent m s))
  ∧ ∀ (m : Manager) (c : Instr) (s : State), c.link? = some m → (∀ l, c ≠ .resetPart l) →
    ∃ t r, exec c s = .next (answer m c s (t, r)) ∧ t.linkA = s.linkA ∧ t.linkB = s.linkB ∧ t.straps = s.straps

/-- Each command's reply carries the data length of Table 11.5 with a status that carries data, and none with any other; its LEN
counts the characters after it, its second character is the status of Table 11.6, and the sum of all is 0 (R164, R173). Every
character has the address flag clear, even parity and a high stop bit, and TXD carries the characters of a reply being sent back to
back, twelve bit times each (R164, R171). The reply looked at is the one that the model records (notes/assumptions/6). -/
def Obligations.RepliesHaveTheirLength : Prop :=
  (∀ (m : Manager) (c : Instr) (f : Byte × List Byte) (s : State),
    c.link? = some m → frameOf c = some f → (s.link m).buffer = [] → ¬ Voided m c s →
    ∃ t r row, exec c s = .next t ∧ (t.link m).lastReply = some r ∧ commandRow? f.1.toNat = some row
      ∧ (if r.status = .ok ∨ r.status = .clamped ∨ r.status = .still then r.data.length = row.replyData else r.data = [])
      ∧ r.data.length + 2 ≤ 255)
  ∧ (∀ r : Reply, let values := r.chars.map LinkChar.data
      (∃ check, values = BitVec.ofNat 8 (r.data.length + 2) :: (match r.status with
            | .ok => 0x00 | .clamped => 0x01 | .still => 0x02 | .busy => 0x10 | .range => 0x11 | .overlap => 0x12
            | .notOwner => 0x13 | .unknown => 0x20 | .length => 0x21) :: r.data ++ [check])
      ∧ sumBytes values = 0
      ∧ ∀ ch ∈ r.chars, ch.flag = false ∧ ch.stop = true
          ∧ (((List.range 8).map fun i => ch.data.getLsbD i) ++ [ch.flag, ch.parity]).count true % 2 = 0)
  ∧ ∀ (l : Link) (cs : List LinkChar), l.tx = .sending cs →
      l.txe = true ∧ l.txd.length = 12 * cs.length
        ∧ ∀ (before after : List LinkChar) (ch : LinkChar), cs = before ++ ch :: after →
            (l.txd.drop (12 * before.length)).take 12
              = false :: ((List.range 8).map fun i => ch.data.getLsbD i) ++ [ch.flag, ch.parity, ch.stop]

/-- A frame's CODE and operands spell one command, and each command that a link carries has that one frame: decoding the frame of
a command gives the command back, what is decoded to a command is that command's frame, a CODE that Table 11.5 does not hold is
UNKNOWN, and another number of operands is LENGTH (R163, R172, R173, R174). -/
def Obligations.FramesDecodeAndEncode : Prop :=
  (∀ i : Instr, Laws.FrameRoundTrip.Statement i)
    ∧ ∀ (l : Manager) (code : Byte) (ops : List Byte), match decodeFrame l code ops with
      | .unknown => ∀ row ∈ commandRows, row.code ≠ code.toNat
      | .length => ∃ row ∈ commandRows, row.code = code.toNat ∧ ops.length ≠ row.operands
      | .command i => i.link? = some l ∧ frameOf i = some (code, ops)

/-- A command's frame received character by character on a link in WAITING: with the CHECK that makes the sum 0 the command is
handed to its owner and the frame is counted, with any other CHECK the frame is discarded and counted as an error of that kind
(R159, R160, R163). -/
def Obligations.FrameReachesItsOwner : Prop :=
  ∀ (m : Manager) (i : Instr) (f : Byte × List Byte) (check : Byte) (s : State),
    i.link? = some m → frameOf i = some f → s.pending = [] →
    (s.link m).intake = .waiting → (s.link m).buffer = [] → (s.link m).tx = .idle →
    let body := BitVec.ofNat 8 (f.2.length + 2) :: f.1 :: f.2
    let chars := body ++ [check]
    ∃ t : State,
      core.run chars.length ({ s with pending := chars.map fun b => .dataCharacter m (LinkChar.make b false) } : State)
        = .next t
      ∧ OnlyLinks s t ∧ (∀ k, k ≠ m → t.link k = s.link k)
      ∧ (t.link m).selection = (s.link m).selection ∧ (t.link m).buffer = [] ∧ (t.link m).tx = .idle
      ∧ (if sumBytes chars = 0 then
          (t.link m).intake = .handing i false ∧ (t.link m).frameCount = (s.link m).frameCount + 1
            ∧ (t.link m).errorCount = (s.link m).errorCount
        else
          (t.link m).intake = .waiting ∧ (t.link m).frameCount = (s.link m).frameCount
            ∧ (t.link m).errorCount.toNat = min ((s.link m).errorCount.toNat + 1) 65535
            ∧ (t.link m).lastError = some .check)

/-- An address character sets the selection by its value, leaves the intake ready for a new frame or DESELECTED, and abandons the
frame and the reply before it (R158, R162). -/
def Obligations.AddressCharacterSelects : Prop :=
  ∀ (l : Manager) (ch : LinkChar) (s : State), ch.isAddress = true →
    (s.link l).buffer = [] → (∀ c ov, (s.link l).intake ≠ .handing c ov) →
    ∃ t, exec (.addressCharacter l ch) s = .next t ∧ OnlyLinks s t ∧ (∀ k, k ≠ l → t.link k = s.link k)
      ∧ (t.link l).selection = (if ch.data.toNat = 63 then .broadcast
          else if ch.data.toNat = s.straps.stn.toNat then .selected else .deselected)
      ∧ (t.link l).intake = (if (t.link l).selection = .deselected then .deselected else .waiting)
      ∧ (t.link l).buffer = [] ∧ (t.link l).frameCount = (s.link l).frameCount
      ∧ (match (s.link l).intake with
          | .receiving f =>
            (t.link l).tx = (s.link l).tx
              ∧ (t.link l).errorCount.toNat
                = (if f.damaged then min ((s.link l).errorCount.toNat + 1) 65535 else (s.link l).errorCount.toNat)
              ∧ (t.link l).lastError = (if f.damaged then some .character else (s.link l).lastError)
          | .replying _ =>
            (t.link l).errorCount = (s.link l).errorCount
              ∧ (t.link l).tx = (match (s.link l).tx with | .sending _ => .finishing | x => x)
          | _ => (t.link l).errorCount = (s.link l).errorCount ∧ (t.link l).tx = (s.link l).tx)

/-- A data character or damaged character acts by the state of the intake (Table 10.1, R157, R160): dropped while the link
transmits, ignored in DESELECTED and SKIPPING, held in HANDING, a LEN in WAITING, the next of its frame in RECEIVING. The last of a
frame judges it: damaged, it is discarded as CHARACTER; with a sum other than 0, as CHECK; received whole it is counted and its
command handed on, or, UNKNOWN or LENGTH, answered so where the link is SELECTED (R163). In HANDING characters are held two at
most, address characters among them; a character that finds two held is an overrun, and acts by the state of the intake (R157,
R160). The model's own in this are the records of the last reply and of a dropped command (notes/assumptions/6), that the time of a
character is kept in every intake state, and not at an overrun (notes/assumptions/24), and that the link transmits exactly while TXE
is asserted (notes/assumptions/20). -/
def Obligations.DataCharacterActsByState : Prop :=
  ∀ (l : Manager) (ch : LinkChar) (s : State),
    (ch.isAddress = false → (s.link l).tx ≠ .idle → exec (.dataCharacter l ch) s = .next s)
    ∧ (ch.isAddress = false → (s.link l).tx = .idle → (s.link l).buffer = [] →
        ∃ t, exec (.dataCharacter l ch) s = .next t ∧ OnlyLinks s t ∧ (∀ k, k ≠ l → t.link k = s.link k)
          ∧ (t.link l).selection = (s.link l).selection
          ∧ (match (s.link l).intake with
              | .deselected | .skipping | .replying _ =>
                t.link l = { s.link l with lastTaken := s.clock }
              | .handing _ _ =>
                t.link l = { s.link l with
                  buffer := [{ value := ch.data, address := false, damaged := ch.damaged, time := s.clock }] }
              | .waiting =>
                (t.link l).buffer = [] ∧ (t.link l).lastTaken = s.clock
                  ∧ (if ch.damaged = false ∧ 2 ≤ ch.data.toNat ∧ ch.data.toNat ≤ 60 then
                      (t.link l).intake = .receiving
                          { len := ch.data.toNat, count := 0, sum := ch.data, damaged := false, chars := [] }
                        ∧ (t.link l).errorCount = (s.link l).errorCount
                    else
                      (t.link l).intake = .skipping
                        ∧ (t.link l).errorCount.toNat = min ((s.link l).errorCount.toNat + 1) 65535
                        ∧ (t.link l).lastError = some (if ch.damaged then .character else .badLen))
              | .receiving f =>
                let g : Frame := { f with
                  count := f.count + 1, sum := f.sum + ch.data, damaged := f.damaged || ch.damaged
                  chars := f.chars ++ [ch.data] }
                let taken : Link := { s.link l with lastTaken := s.clock }
                let discarded (k : ErrorKind) : Link := { taken with
                  intake := .waiting, errorCount := satInc taken.errorCount, lastError := some k }
                let whole : Link := { taken with frameCount := taken.frameCount + 1 }
                let answered (r : Reply) : Prop :=
                  (taken.selection = .selected → t.link l = { whole with
                    lastReply := some r, intake := .replying false, tx := .sending r.chars })
                  ∧ (taken.selection = .broadcast → t.link l = { whole with lastReply := some r, intake := .waiting })
                if g.count ≠ g.len then t.link l = { taken with intake := .receiving g }
                else if g.damaged = true then t.link l = discarded .character
                else if g.sum ≠ 0 then t.link l = discarded .check
                else match decodeFrame l (g.chars.headD 0) ((g.chars.drop 1).take (g.len - 2)) with
                  | .command c => t.link l = { whole with intake := .handing c false, dropped := none }
                  | .unknown => answered { status := .unknown, data := [] }
                  | .length => answered { status := .length, data := [] }))
    ∧ ∀ c : Instr, (ch.isAddress = false ∧ (s.link l).tx = .idle ∧ c = .dataCharacter l ch
          ∨ ch.isAddress = true ∧ c = .addressCharacter l ch) →
        (∀ k ov, (s.link l).intake = .handing k ov → (s.link l).buffer.length < 2 →
          ∃ t, exec c s = .next t ∧ OnlyLinks s t ∧ (∀ k, k ≠ l → t.link k = s.link k)
            ∧ t.link l = { s.link l with buffer := (s.link l).buffer ++
                [{ value := ch.data, address := ch.isAddress, damaged := ch.damaged, time := s.clock }] })
        ∧ ((s.link l).buffer.length = 2 →
          ∃ t, exec c s = .next t ∧ OnlyLinks s t ∧ (∀ k, k ≠ l → t.link k = s.link k)
            ∧ t.link l = (match (s.link l).intake with
              | .waiting | .receiving _ =>
                { s.link l with
                  intake := .skipping, errorCount := satInc (s.link l).errorCount, lastError := some .overrun }
              | .handing k _ => { s.link l with intake := .handing k true }
              | .deselected | .skipping | .replying _ => s.link l))

/-- The gap of a link ends a frame in RECEIVING with an error and ends SKIPPING without one, at 21 ticks since the last character
taken (R161); the end of a reply releases TXE and leaves the intake WAITING, SKIPPING or DESELECTED (R164, R168); TXE is
released at the stop bit of an abandoned reply's character (R162). -/
def Obligations.GapsAndRepliesEnd : Prop :=
  ∀ (l : Manager) (s : State),
    (∃ t, exec (.frameGapTimeout l) s = .next t ∧ OnlyLinks s t ∧ (∀ k, k ≠ l → t.link k = s.link k)
      ∧ t.link l = (match (s.link l).intake with
          | .receiving _ =>
            if 21 ≤ (s.clock - (s.link l).lastTaken).toNat then
              { s.link l with intake := .waiting, errorCount := satInc (s.link l).errorCount, lastError := some .gap }
            else s.link l
          | .skipping =>
            if 21 ≤ (s.clock - (s.link l).lastTaken).toNat then { s.link l with intake := .waiting } else s.link l
          | _ => s.link l))
    ∧ (∃ t, exec (.replyComplete l) s = .next t ∧ OnlyLinks s t ∧ (∀ k, k ≠ l → t.link k = s.link k)
      ∧ t.link l = (match (s.link l).intake with
          | .replying skip =>
            { s.link l with
              tx := .idle
              intake := if (s.link l).selection = .deselected then .deselected
                else if skip then .skipping else .waiting }
          | _ => s.link l))
    ∧ ∃ t, exec (.abandonedReplyStop l) s = .next t ∧ OnlyLinks s t ∧ (∀ k, k ≠ l → t.link k = s.link k)
      ∧ t.link l = (if (s.link l).tx = .finishing then { s.link l with tx := .idle } else s.link l)

/-! ### The channel -/

/-- The line address of a burst in the four map orders of Table 2.1, the worked case of R3, the line of a column, and the way
back from an address to its bank, row and line (R3). -/
def Obligations.LineAddressMap : Prop :=
  (∀ (amap : BitVec 2) (b : BankAddr) (row : RowNumber) (line : BitVec 7),
    (lineAddress amap b row line).toNat = 64 *
      (match amap.toNat with
        | 0 => ((((b.rank.toNat * 2 ^ 17 + row.toNat) * 4 + b.group.toNat) * 4 + b.bank.toNat) * 128 + line.toNat)
        | 1 => ((((b.rank.toNat * 2 ^ 17 + row.toNat) * 4 + b.bank.toNat) * 4 + b.group.toNat) * 128 + line.toNat)
        | 2 => ((((b.rank.toNat * 4 + b.group.toNat) * 4 + b.bank.toNat) * 2 ^ 17 + row.toNat) * 128 + line.toNat)
        | _ => ((((row.toNat * 4 + b.rank.toNat) * 4 + b.group.toNat) * 4 + b.bank.toNat) * 128 + line.toNat))
    ∧ bankOfAddress amap (lineAddress amap b row line) = b
    ∧ rowOfAddress amap (lineAddress amap b row line) = row
    ∧ lineOfAddress (lineAddress amap b row line) = line)
  ∧ (∀ column : BitVec 10, (column.extractLsb' 3 7).toNat = column.toNat / 8)
  ∧ lineAddress 0 { rank := 0, group := 2, bank := 1 } 0x123 5 = 0x002472140

/-- ROW_ACTIVATE opens its bank with the row, BANK_PRECHARGE closes its bank and RANK_PRECHARGE the 16 banks of its rank, in every
state of BRST_N; no other bank and nothing else changes (R2, R12). A column command to an OPEN bank is resolved: its burst, at the
line of the row recorded and of its column, is in flight. To a CLOSED bank it is counted as unobserved, but not while BRST_N is
asserted. With auto-precharge the bank is then CLOSED, and nothing else changes (R2, R3, R9). The list of bursts in flight, and that
an unresolved burst is counted at its command, are the model's choice (notes/assumptions/7 and 33). -/
def Obligations.CommandsFollowTheOpenRows : Prop :=
  (∀ (b : BankAddr) (row : RowNumber) (rank : BitVec 2) (s : State),
    (∃ t, exec (.rowActivate b row) s = .next t ∧ t = { s with tap := { s.tap with openRows := t.tap.openRows } }
      ∧ t.tap.bank b = .openRow row ∧ ∀ c, c ≠ b → t.tap.bank c = s.tap.bank c)
    ∧ (∃ t, exec (.bankPrecharge b) s = .next t ∧ t = { s with tap := { s.tap with openRows := t.tap.openRows } }
      ∧ t.tap.bank b = .closed ∧ ∀ c, c ≠ b → t.tap.bank c = s.tap.bank c)
    ∧ ∃ t, exec (.rankPrecharge rank) s = .next t ∧ t = { s with tap := { s.tap with openRows := t.tap.openRows } }
      ∧ ∀ c, t.tap.bank c = if c.rank = rank then .closed else s.tap.bank c)
  ∧ ∀ (b : BankAddr) (column : BitVec 10) (op : ColumnOp) (length : BurstLength) (auto : Bool) (s : State),
    ∃ t, exec (.columnCommand b column op length auto) s = .next t
      ∧ t = { s with tap := { s.tap with
                openRows := t.tap.openRows, writesInFlight := t.tap.writesInFlight
                readsInFlight := t.tap.readsInFlight, unobservedCount := t.tap.unobservedCount } }
      ∧ (∀ c, t.tap.bank c = if c = b ∧ auto = true then .closed else s.tap.bank c)
      ∧ (match s.tap.bank b with
          | .closed =>
            t.tap.writesInFlight = s.tap.writesInFlight ∧ t.tap.readsInFlight = s.tap.readsInFlight
              ∧ t.tap.unobservedCount.toNat = (if s.tap.brstAsserted then s.tap.unobservedCount.toNat
                  else min (s.tap.unobservedCount.toNat + 1) 65535)
          | .openRow row =>
            let burst : InFlight :=
              { line := lineAddress s.straps.amap b row (column.extractLsb' 3 7), length := length }
            t.tap.unobservedCount = s.tap.unobservedCount
              ∧ t.tap.writesInFlight = (if op = .write then s.tap.writesInFlight ++ [burst] else s.tap.writesInFlight)
              ∧ t.tap.readsInFlight = (if op = .read then s.tap.readsInFlight ++ [burst] else s.tap.readsInFlight))

/-- A burst whose data completes with BRST_N asserted, or partly while it was, is not presented; a chopped read is counted as
unobserved; a burst outside every window is counted in its own count and in outside, and handed to no block. A write at the line
of a probe in READING sets the void mark in every case (R4, R5, R7, R9, R12, R14). That operands name the burst and say that part of
it fell into the reset is the model's choice (notes/assumptions/7 and 13), and so is it that a chopped read is counted when its data
returns, and not where BRST_N is asserted then (notes/assumptions/33). -/
def Obligations.BurstsHandedToNoBlock : Prop :=
  ∀ (which : Nat) (data : LineData) (mask : ByteMask) (dur : Bool) (b : InFlight) (s : State),
    (s.tap.writesInFlight[which]? = some b →
      let marked : Tap := { s.tap with
        writesInFlight := s.tap.writesInFlight.eraseIdx which
        port := { s.tap.port with voidMark := s.tap.port.voidMark
                    || (decide (s.tap.port.phase = .reading) && decide (s.tap.port.line = some b.line)) } }
      ((s.tap.brstAsserted = true ∨ dur = true) →
        exec (.writeDataComplete which data mask dur) s = .next { s with tap := marked })
      ∧ (s.tap.brstAsserted = false → dur = false → LookupHolds s → OutsideWindows s b.line → prbSettled s →
        exec (.writeDataComplete which data mask dur) s = .next
          { s with tap := { marked with
              writeCount := s.tap.writeCount + 1, outsideCount := s.tap.outsideCount + 1 } }))
    ∧ (s.tap.readsInFlight[which]? = some b →
      let taken : Tap := { s.tap with readsInFlight := s.tap.readsInFlight.eraseIdx which }
      ((s.tap.brstAsserted = true ∨ dur = true) →
        exec (.readDataComplete which data dur) s = .next { s with tap := taken })
      ∧ (s.tap.brstAsserted = false → dur = false → b.length ≠ .full →
        exec (.readDataComplete which data dur) s = .next
          { s with tap := { taken with unobservedCount := satInc s.tap.unobservedCount } })
      ∧ (s.tap.brstAsserted = false → dur = false → b.length = .full → LookupHolds s → OutsideWindows s b.line →
        prbSettled s →
        exec (.readDataComplete which data dur) s = .next
          { s with tap := { taken with
              readCount := s.tap.readCount + 1, outsideCount := s.tap.outsideCount + 1 } }))

/-- The channel clock's monitor at a tick boundary (R10, R11, R132). CLOCK_STOP: RUNNING becomes STOPPED with an absence count of 1,
or 0 while BRST_N is asserted. A line that the port holds is then ABORTED: PREQ is released, the port is RELEASING, and the PRB takes
the line as starved, or drops it where it bears the discard mark (R15, R120, R122); stated where the PRB has no further line to
take. CHANNEL_LOSS: an absence count at a nonzero limit becomes LOST, CHANNEL_LOST is posted and the loss counted; with
fence-on-loss on the channel-loss trigger then begins to stand, which moves NORMAL and HOLDOFF to FAULT (R131, R133).
CLOCK_RESUME ends STOPPED and nothing more. RETURN_AFTER_LOSS ends LOST: the channel-loss trigger ceases to stand, the verdict
stays, and with BRST_N released there is a discontinuity that starts and ends (R13). -/
def Obligations.ChannelClockMonitor : Prop :=
  ∀ s : State,
    (s.tap.presence = .running → s.tap.port.line = none → prbSettled s →
      exec .clockStop s = .next
        { s with tap := { s.tap with presence := .stopped, absence := if s.tap.brstAsserted then 0 else 1 } })
    ∧ (∀ (h : LineInHand) (a : LineAddr), s.tap.presence = .running → s.tap.port.line = some a →
        s.echo.prb = .requesting h ∨ s.echo.prb = .reading h → s.echo.probeQueue = [] →
        let tap : Tap := { s.tap with
          presence := .stopped, absence := if s.tap.brstAsserted then 0 else 1
          port := { s.tap.port with phase := .releasing, line := none } }
        (s.echo.prb = .reading h → h.discard = true → s.echo.single.isBusy = false → currentEntry s = none →
          exec .clockStop s = .next { s with tap := tap, echo := { s.echo with prb := .idle } })
        ∧ ((s.echo.prb = .reading h → h.discard = false) →
          (∀ b, h.purpose = .singleProbe → s.echo.single = .busy b → currentEntry s = none →
            exec .clockStop s = .next
              { s with tap := tap, echo := { s.echo with prb := .idle, single := .done b .starved } })
          ∧ ∀ before e after, h.purpose = .currentEntry → s.echo.single.isBusy = false →
            s.echo.entries = before ++ e :: after → e.status = .probing → (∀ f ∈ before ++ after, f.status = .watching) →
            ∃ t, exec .clockStop s = .next t
              ∧ t = { s with
                  tap := tap, iar := t.iar, pairs := t.pairs
                  echo := { s.echo with
                    prb := .idle, entries := before ++ after
                    counters := { s.echo.counters with starved := satInc s.echo.counters.starved } } }
              ∧ Posted (pairSource e.pair) .starved s t ∧ OtherPairs e.pair s t
              ∧ t.pair e.pair = { s.pair e.pair with hev := { (s.pair e.pair).hev with
                  window := if (s.pair e.pair).health.enabled then
                      (s.pair e.pair).hev.window.map fun w =>
                        if w.held then w else { w with adverse := satInc w.adverse }
                    else (s.pair e.pair).hev.window } }))
    ∧ (s.tap.presence = .stopped → s.vrd.settings.channelLossLimit ≠ 0 →
        s.vrd.settings.channelLossLimit ≤ s.tap.absence →
        ∃ u t, exec .channelLoss s = .next t ∧ Posted boardSource .channelLost s u
          ∧ u = { s with
              tap := { s.tap with presence := .lost }, iar := u.iar
              vrd := { s.vrd with counters := { s.vrd.counters with
                channelLosses := satInc s.vrd.counters.channelLosses } } }
          ∧ (if s.vrd.settings.fenceOnLoss then TriggerJoins .channelLoss u t else t = u))
    ∧ (s.tap.presence = .stopped →
        exec .clockResume s = .next { s with tap := { s.tap with presence := .running, absence := 0 } })
    ∧ (s.tap.presence = .lost →
        let back : State := { s with
          tap := { s.tap with presence := .running, absence := 0 }
          vrd := { s.vrd with triggers := { s.vrd.triggers with channelLoss := false } } }
        (s.tap.brstAsserted = true → exec .returnAfterLoss s = .next back)
        ∧ (s.tap.brstAsserted = false → ∃ u t, exec .returnAfterLoss s = .next t ∧ Discontinued back u ∧ Restarted u t))

/-- The board reset input (R12, R13): its assertion starts the held discontinuity in every block, its release ends it, and the
silence timers, pulse timers and windows start afresh then (R41, R103, R107). A single probe accepted while it was asserted is taken
in hand at the release (R119). A judgement that finds the level it has changes nothing. -/
def Obligations.BoardResetIsADiscontinuity : Prop :=
  ∀ s : State,
    (s.tap.brstAsserted = false → ∃ t, exec .boardResetAsserted s = .next t
      ∧ Discontinued { s with tap := { s.tap with brstAsserted := true } } t)
    ∧ (s.tap.brstAsserted = true → s.echo.prb = .idle → currentEntry s = none → s.echo.probeQueue = [] →
        ∃ u t, exec .boardResetReleased s = .next t ∧ Restarted { s with tap := { s.tap with brstAsserted := false } } u
          ∧ t = (match s.echo.single with
              | .busy a => lineTaken
                  { purpose := .singleProbe, address := a, index := 0, takenAt := s.clock, discard := false } u
              | _ => u))
    ∧ (s.tap.brstAsserted = true → exec .boardResetAsserted s = .next s)
    ∧ (s.tap.brstAsserted = false → exec .boardResetReleased s = .next s)

/-! ### Records -/

/-- A write to a slot of an enabled stream, as the ASM takes it (R4, R7, R22 to R27), whatever the slot's size, the commit mode and
the bytes enabled. A write that enables nothing changes no assembly. One that finds no assembly of its slot while four are open is
counted unassembled, with ASSEMBLY_FULL (also where it would be torn: notes/assumptions/14). Any other is applied to the slot's
assembly, or to one that it opens: a line written whole is certain with its contribution, a line written in part is not (R23). A
header written in part is TORN (R24); written whole it commits the record in HEADER mode and on a one-line slot (R25, R27), and in
TAIL mode is captured, a second one being TORN with a fresh assembly in the place of the old (R26). The last line in TAIL mode
commits with a header captured, and is TORN without one. A commit makes the record checks on the stream as it stands,
synchronised or not (R29 to R36). On a COMPLETION stream the write first retires the echo entry that watches the slot OVERTAKEN
(R114, R122). Nothing else changes. `before` and `after` are the stream's other assemblies in their order; stated where the PRB
has no further line to take. -/
def Obligations.WritesAssembleAndCommit : Prop :=
  ∀ (which : Nat) (b : InFlight) (n : StreamIx) (slot : Nat) (line : Fin 8) (data : LineData) (enables : ByteMask)
      (before after : List Assembly) (old : Option Assembly) (s : State),
    LookupHolds s → WriteTo s which b n slot line → prbSettled s →
    (s.stream n).assemblies = before ++ old.toList ++ after → (∀ a ∈ before ++ after, a.slot ≠ slot) →
    (∀ a ∈ old, a.slot = slot) → (old = none → after = []) →
    (∀ first e rest, s.echo.entries = first ++ e :: rest → e.stream = n → e.slot = slot → PrbRests e (first ++ rest) s) →
    let x := s.stream n
    let mask := enables &&& sentBytes b.length
    let voiding : ProbePort := { s.tap.port with
      voidMark := s.tap.port.voidMark
        || (decide (s.tap.port.phase = .reading) && decide (s.tap.port.line = some b.line)) }
    let base : Assembly := match old with
      | some a => a
      | none => { slot := slot, openedAt := s.clock, lines := Vector.replicate 8 none, header := none }
    let recorded : Option (BitVec 32) := if mask = BitVec.allOnes 64 then some (contribution line.1 data) else none
    let written : Assembly := { base with lines := base.lines.set line.1 recorded }
    let renewed : Assembly :=
      { slot := slot, openedAt := s.clock, lines := (Vector.replicate 8 none).set 0 recorded, header := some (headerIn data) }
    let freed : Stream := { x with assemblies := before ++ after }
    let kept (a : Assembly) : Stream := { x with assemblies := before ++ a :: after }
    let headerBytes : BitVec 16 := mask.extractLsb' 0 16
    ∃ t, exec (.writeDataComplete which data enables false) s = .next t
      ∧ t = { s with
          tap := { s.tap with
            writesInFlight := s.tap.writesInFlight.eraseIdx which, writeCount := s.tap.writeCount + 1
            port := t.tap.port }
          echo := t.echo, streams := t.streams, commitQueue := t.commitQueue, iar := t.iar }
      ∧ OtherStreams n s t
      ∧ (x.desc.role ≠ .completion ∨ (∀ e ∈ s.echo.entries, ¬ (e.stream = n ∧ e.slot = slot)) →
          t.echo = s.echo ∧ t.tap.port = voiding)
      ∧ (∀ first e rest, x.desc.role = .completion → s.echo.entries = first ++ e :: rest →
          (∀ f ∈ first, ¬ (f.stream = n ∧ f.slot = slot)) → e.stream = n → e.slot = slot →
          t.echo = { retired e (first ++ rest) s.echo with
              counters := { s.echo.counters with overtaken := satInc s.echo.counters.overtaken } }
            ∧ t.tap.port = withdrawn e s.echo.prb voiding)
      ∧ (if mask = 0 then t.streams = s.streams ∧ t.commitQueue = s.commitQueue ∧ t.iar = s.iar
        else if old = none ∧ 4 ≤ before.length then
          Posted (streamSource n) .assemblyFull s t ∧ t.commitQueue = s.commitQueue
            ∧ t.stream n = { x with counters := { x.counters with unassembled := satInc x.counters.unassembled } }
        else if x.desc.slotSize.lines = 1 then
          if headerBytes = 0xFFFF#16 then
            Committed n freed { renewed with header := none } (headerIn data) s t
          else Torn n freed s t
        else if line.1 = 0 ∧ headerBytes = 0xFFFF#16 ∧ x.desc.commitMode = .header then
          Committed n freed written (headerIn data) s t
        else if line.1 = 0 ∧ headerBytes = 0xFFFF#16 ∧ base.header.isSome then Torn n (kept renewed) s t
        else if line.1 = 0 ∧ headerBytes ≠ 0xFFFF#16 ∧ headerBytes ≠ 0 then Torn n freed s t
        else if line.1 ≠ 0 ∧ line.1 + 1 = x.desc.slotSize.lines ∧ x.desc.commitMode = .tail then
          match base.header with
          | some h => Committed n freed written h s t
          | none => Torn n freed s t
        else
          t.commitQueue = s.commitQueue ∧ t.iar = s.iar
            ∧ t.stream n = kept (if line.1 = 0 ∧ headerBytes = 0xFFFF#16 then
                { written with header := some (headerIn data) } else written))

/-- The sequence check of a synchronised stream (R32): a place ahead within the span is taken once, the places taken without a
break from next on move next past them; further ahead there is a gap; behind next, or at a place taken, the record is stale. -/
def Obligations.SequenceCheck : Prop :=
  ∀ (span : Nat) (next sequence : BitVec 32) (places : BitVec 4), 1 ≤ span → span ≤ 4 →
    let d := (sequence - next).toNat
    let set := places ||| BitVec.ofNat 4 (2 ^ d)
    (d < span → places.getLsbD d = false →
      ∃ k, k ≤ 4 ∧ (∀ j, j < k → set.getLsbD j = true) ∧ set.getLsbD k = false
        ∧ checkSequence span (.synchronised next places) sequence
          = .accepted (.synchronised (next + BitVec.ofNat 32 k) (set >>> k)))
    ∧ (d < span → places.getLsbD d = true →
        checkSequence span (.synchronised next places) sequence = .stale)
    ∧ (span ≤ d → d < 2 ^ 31 →
        checkSequence span (.synchronised next places) sequence
          = .gap (.synchronised (sequence + 1) 0) (sequence - next))
    ∧ (2 ^ 31 ≤ d → checkSequence span (.synchronised next places) sequence = .stale)
    ∧ checkSequence span .unsynchronised sequence = .accepted (.synchronised (sequence + 1) 0)

/-- The signature contribution of a line (R33, R111): each of its 16 words, least significant byte first, times one more than its
index in the slot, summed modulo 2^32. A record's signature is the sum of the contributions that its assembly has recorded, and its
certain lines are the lines that have one (R22, R33, R34). -/
def Obligations.LineContribution : Prop :=
  (∀ (i : Nat) (data : LineData),
    (contribution i data).toNat
      = (∑ k : Fin 16, (16 * i + k.1 + 1) * (data[4 * k.1].toNat + 256 * data[4 * k.1 + 1].toNat
          + 65536 * data[4 * k.1 + 2].toNat + 16777216 * data[4 * k.1 + 3].toNat)) % 2 ^ 32)
  ∧ ∀ a : Assembly, a.signature = (∑ i : Fin 8, (a.lines[i.1]).getD 0)
      ∧ ∀ i : Fin 8, a.certain.getLsbD i.1 = (a.lines[i.1]).isSome

/-- An assembly that has reached the assembly limit is freed, counted and posted (R28); a stream that has become silent is marked,
counted and posted (R38). -/
def Obligations.AbandonAndSilence : Prop :=
  ∀ (n : StreamIx) (s : State),
    (∀ a, AssembliesDistinct s → a ∈ (s.stream n).assemblies →
        (s.stream n).desc.assemblyLimit ≤ (s.clock - a.openedAt).toNat →
        ∃ t, exec (.assemblyAbandon n a.slot) s = .next t ∧ t = { s with streams := t.streams, iar := t.iar }
          ∧ OtherStreams n s t ∧ Posted (streamSource n) .abandoned s t
          ∧ t.stream n = { s.stream n with
              assemblies := (s.stream n).assemblies.erase a
              counters := { (s.stream n).counters with abandoned := satInc (s.stream n).counters.abandoned } })
    ∧ ((s.stream n).enabled = true → (s.stream n).desc.silenceLimit ≠ 0 → (s.stream n).silent = false →
        s.tap.brstAsserted = false →
        (s.stream n).desc.silenceLimit ≤ (s.clock - (s.stream n).lastAccepted).toNat →
        ∃ t, exec (.silence n) s = .next t ∧ t = { s with streams := t.streams, iar := t.iar }
          ∧ OtherStreams n s t ∧ Posted (streamSource n) .silence s t
          ∧ t.stream n = { s.stream n with
              silent := true
              counters := { (s.stream n).counters with silences := satInc (s.stream n).counters.silences } })

/-- A read of line 0 of a request slot (R61): of the open entries of the stream's pair that name the slot, the one nearest the tail
takes the pickup if it has none; no other entry and nothing else of the pair changes. With no such entry, or a read of another
line, the pair is as it was. A read of a slot of a stream whose pair is DISABLED or which no pair names changes nothing, nor does one
of a PULSE slot (Table 2.2). That the entry nearest the tail is the one of latest arrival is deduced (notes/assumptions/18). -/
def Obligations.ReadOfARequestSlot : Prop :=
  (∀ (which : Nat) (n : StreamIx) (slot : Nat) (line : Fin 8) (data : LineData) (p : PairIx) (s : State),
    LookupHolds s → WholeReadOf s which n slot line → prbSettled s →
    (s.stream n).desc.role = .request → s.pairOf n = some p → (s.pair p).health.active = true →
    ∃ t, exec (.readDataComplete which data false) s = .next t
      ∧ t = { s with
          tap := { s.tap with
            readsInFlight := s.tap.readsInFlight.eraseIdx which, readCount := s.tap.readCount + 1 }
          pairs := t.pairs }
      ∧ OtherPairs p s t ∧ t.pair p = { s.pair p with openList := (t.pair p).openList }
      ∧ ((line.1 ≠ 0 ∨ ∀ e ∈ (s.pair p).openList, e.slot ≠ slot) → t.pair p = s.pair p)
      ∧ ∀ before after e, line.1 = 0 → (s.pair p).openList = before ++ e :: after → e.slot = slot →
          (∀ f ∈ after, f.slot ≠ slot) →
          (t.pair p).openList
            = before ++ { e with pickup := some (match e.pickup with | none => s.clock | some c => c) } :: after)
  ∧ ∀ (which : Nat) (n : StreamIx) (slot : Nat) (line : Fin 8) (data : LineData) (s : State),
    LookupHolds s → WholeReadOf s which n slot line → prbSettled s →
    ((s.stream n).desc.role = .pulse
      ∨ (s.stream n).desc.role = .request ∧ ∀ p, s.pairOf n = some p → (s.pair p).health = .disabled) →
    exec (.readDataComplete which data false) s = .next { s with tap := { s.tap with
      readsInFlight := s.tap.readsInFlight.eraseIdx which, readCount := s.tap.readCount + 1 } }

/-- A read of a line of a completion slot that an entry of the echo list watches and still misses (R111, R112), in every probe
status: the line's contribution joins the read sum; with the last missing line the entry is compared and retired, CONFIRMED when
the sums are equal, else MISMATCH with the finding against its pair (R113). A QUEUED entry leaves the probe queue with that, and the
line in hand for a PROBING one is given up (R116, R122). A read of a slot that no entry watches, of a line that is not in the written
mask, and of a line that is in the read mask already, changes nothing. Stated where the PRB has no further line to take. -/
def Obligations.FetchIsCompared : Prop :=
  (∀ (which : Nat) (line : Fin 8) (data : LineData) (before after : List EchoEntry) (e : EchoEntry) (s : State),
    LookupHolds s → WholeReadOf s which e.stream e.slot line → prbSettled s → PrbRests e (before ++ after) s →
    (s.stream e.stream).desc.role = .completion →
    s.echo.entries = before ++ e :: after → (∀ f ∈ before, ¬ (f.stream = e.stream ∧ f.slot = e.slot)) →
    e.written.getLsbD line.1 = true → e.readMask.getLsbD line.1 = false →
    let mask := e.readMask ||| BitVec.ofNat 8 (2 ^ line.1)
    let sum := e.readSum + contribution line.1 data
    let tap : Tap := { s.tap with
      readsInFlight := s.tap.readsInFlight.eraseIdx which, readCount := s.tap.readCount + 1 }
    let retiredTap : Tap := { tap with port := withdrawn e s.echo.prb s.tap.port }
    let left : Echo := retired e (before ++ after) s.echo
    (mask ≠ e.written → exec (.readDataComplete which data false) s = .next
        { s with tap := tap, echo := { s.echo with
            entries := before ++ { e with readMask := mask, readSum := sum } :: after } })
    ∧ (mask = e.written → sum = e.expected → exec (.readDataComplete which data false) s = .next
        { s with tap := retiredTap, echo := { left with
            counters := { s.echo.counters with confirmed := satInc s.echo.counters.confirmed } } })
    ∧ (mask = e.written → sum ≠ e.expected → ∃ t, exec (.readDataComplete which data false) s = .next t
        ∧ t = { s with
            tap := retiredTap, iar := t.iar, pairs := t.pairs
            echo := { left with
              counters := { s.echo.counters with mismatched := satInc s.echo.counters.mismatched } } }
        ∧ Posted (pairSource e.pair) .mismatch s t ∧ OtherPairs e.pair s t
        ∧ t.pair e.pair = { s.pair e.pair with hev := { (s.pair e.pair).hev with
            window := if (s.pair e.pair).health.enabled then
                (s.pair e.pair).hev.window.map fun w => if w.held then w else { w with adverse := satInc w.adverse }
              else (s.pair e.pair).hev.window } }))
  ∧ ∀ (which : Nat) (n : StreamIx) (slot : Nat) (line : Fin 8) (data : LineData) (s : State),
    LookupHolds s → WholeReadOf s which n slot line → prbSettled s → (s.stream n).desc.role = .completion →
    let watches (e : EchoEntry) : Prop := e.stream = n ∧ e.slot = slot
    ((∀ e ∈ s.echo.entries, ¬ watches e)
      ∨ ∃ before e after, s.echo.entries = before ++ e :: after ∧ (∀ f ∈ before, ¬ watches f) ∧ watches e
          ∧ (e.written.getLsbD line.1 = false ∨ e.readMask.getLsbD line.1 = true)) →
    exec (.readDataComplete which data false) s = .next { s with tap := { s.tap with
      readsInFlight := s.tap.readsInFlight.eraseIdx which, readCount := s.tap.readCount + 1 } }


/-! ### The Correlator -/

/-- A new request of an enabled pair (R51, R53): the requests that the record shows to have passed unseen are counted; the quota and
then the pool may stop it, with their cause; else it is inserted at the tail of the open list. Stated where the entry is not
due at its insertion. -/
def Obligations.CorInsertsARequest : Prop :=
  ∀ (p : PairIx) (r : Record) (rest : List Record) (s : State),
    HeadRecord s p r rest → prbSettled s → (s.stream r.stream).desc.role = .request → r.kind = .work →
    (s.pair p).health.enabled = true →
    (∀ e ∈ (s.pair p).openList, e.tag ≠ r.tag) → (∀ e ∈ (s.pair p).lateList, e.entry.tag ≠ r.tag) →
    ((s.pair p).openList ≠ [] ∨ (s.clock - r.commitTime).toNat < (s.pair p).timeout) →
    let unseen : BitVec 32 := (if r.overrun then 1 else 0) + (match r.gap with | none => 0 | some g => g)
    let count := (s.pair p).openList.length + (s.pair p).lateList.length
    ∃ t, exec .corTakeRecord s = .next t
      ∧ t = { s with commitQueue := rest, pairs := t.pairs, iar := t.iar } ∧ OtherPairs p s t
      ∧ (if count = (s.pair p).desc.quota then
          Posted (pairSource p) .quotaFull s t
            ∧ t.pair p = { s.pair p with counters := { (s.pair p).counters with
                untracked := (s.pair p).counters.untracked + unseen + 1 } }
        else if 2048 ≤ entriesInUse s then
          Posted (pairSource p) .tableFull s t
            ∧ t.pair p = { s.pair p with counters := { (s.pair p).counters with
                untracked := (s.pair p).counters.untracked + unseen + 1 } }
        else
          t.iar = s.iar
            ∧ t.pair p = { s.pair p with
                openList := (s.pair p).openList ++
                  [{ tag := r.tag, slot := r.slot, arrival := r.commitTime, holdCount := 0, retryCount := 0
                     pickup := none }]
                counters := { (s.pair p).counters with
                  tracked := (s.pair p).counters.tracked + 1
                  untracked := (s.pair p).counters.untracked + unseen } })

/-- A retry of a request that an enabled or DRAINING pair holds (R52): the entry's retry count rises, at most to 7, its slot becomes
the record's, and nothing else of the lists changes. Any other request of a DRAINING pair is counted untracked (R47). Before either,
the requests that the record shows to have passed unseen are counted (R51). A record of a REQUEST or COMPLETION stream whose pair
is DISABLED, or which no pair names, is ignored (R50). -/
def Obligations.CorTakesARetry : Prop :=
  (∀ (p : PairIx) (r : Record) (rest : List Record) (s : State),
    HeadRecord s p r rest → prbSettled s → TagsDistinct s → (s.stream r.stream).desc.role = .request → r.kind = .work →
    let q := s.pair p
    let unseen : BitVec 32 := (if r.overrun then 1 else 0) + (match r.gap with | none => 0 | some g => g)
    let untracked (k : BitVec 32) : PairCounters := { q.counters with untracked := q.counters.untracked + k }
    (∀ before e after, q.openList = before ++ e :: after → e.tag = r.tag →
      ∃ t, exec .corTakeRecord s = .next t ∧ t = { s with commitQueue := rest, pairs := t.pairs } ∧ OtherPairs p s t
        ∧ t.pair p = { q with
            counters := untracked unseen
            openList := before ++ { e with retryCount := min (e.retryCount + 1) 7, slot := r.slot } :: after })
    ∧ (∀ before e after, q.lateList = before ++ e :: after → e.entry.tag = r.tag →
      ∃ t, exec .corTakeRecord s = .next t ∧ t = { s with commitQueue := rest, pairs := t.pairs } ∧ OtherPairs p s t
        ∧ t.pair p = { q with
            counters := untracked unseen
            lateList := before ++ { e with entry := { e.entry with
              retryCount := min (e.entry.retryCount + 1) 7, slot := r.slot } } :: after })
    ∧ (q.health = .draining → (∀ e ∈ q.openList, e.tag ≠ r.tag) → (∀ e ∈ q.lateList, e.entry.tag ≠ r.tag) →
      ∃ t, exec .corTakeRecord s = .next t ∧ t = { s with commitQueue := rest, pairs := t.pairs } ∧ OtherPairs p s t
        ∧ t.pair p = { q with counters := untracked (unseen + 1) }))
  ∧ ∀ (r : Record) (rest : List Record) (s : State), s.commitQueue = r :: rest → prbSettled s →
    ((s.stream r.stream).desc.role = .request ∧ r.kind = .work
      ∨ (s.stream r.stream).desc.role = .completion ∧ r.kind ≠ .pulse) →
    (∀ p, s.pairOf r.stream = some p → (s.pair p).health = .disabled) →
    exec .corTakeRecord s = .next { s with commitQueue := rest }

/-- A completion with HOLD clear that finds its entry (R54, R56): from the open list it is counted completed and its sample is the
commit time less the arrival; from the late list it is counted late, LATE is posted, and the sample is at most Tceil. The entry is
freed, the estimator takes the sample (R76) and T is what it then gives (R80). Where T stays and no other entry of that list is due,
the pair is given in full: an enabled pair's running window counts a paired event (R89) and is tainted by a record carrying OVERRUN
(R60, R90), and a DRAINING pair left without entries is DISABLED (R47). With expect fetch yes the record then goes to the ECH (R59,
R109, R110). -/
def Obligations.CorCompletesARequest : Prop :=
  ∀ (p : PairIx) (r : Record) (rest : List Record) (s : State),
    HeadRecord s p r rest → prbSettled s → TagsDistinct s → (s.stream r.stream).desc.role = .completion →
    r.kind = .work → r.hold = false →
    (∀ oldest others, s.echo.entries = oldest :: others → PrbRests oldest others s) →
    let q := s.pair p
    let window : Option EvalWindow := if q.health.enabled then
        q.hev.window.map fun w =>
          if w.held then w else { w with paired := satInc w.paired, taint := w.taint || r.overrun }
      else q.hev.window
    let counted : HealthRecord := { q.hev with window := window }
    let left (l : List Entry) (m : List LateEntry) : Health :=
      if q.health = .draining ∧ l = [] ∧ m = [] then .disabled else q.health
    (∀ e ∈ q.openList, e.tag = r.tag →
      let est := q.est.update q.desc (min (r.commitTime - e.arrival).toNat 1048575)
      ∃ u t, exec .corTakeRecord s = .next t ∧ HandedToEcho p r u t
        ∧ u = { s with commitQueue := rest, pairs := u.pairs, iar := u.iar }
        ∧ OtherPairs p s u ∧ (u.pair p).desc = q.desc ∧ (u.pair p).est = est
        ∧ (u.pair p).timeout = timeoutOf q.desc est s.vrd.factor
        ∧ (u.pair p).counters.completed = q.counters.completed + 1
        ∧ (u.pair p).counters.tracked = q.counters.tracked
        ∧ (∀ f ∈ (u.pair p).openList, f.tag ≠ r.tag) ∧ (∀ f ∈ (u.pair p).lateList, f.entry.tag ≠ r.tag)
        ∧ (timeoutOf q.desc est s.vrd.factor = q.timeout →
            (∀ f ∈ q.openList, f.tag ≠ r.tag → (s.clock - f.arrival).toNat < q.timeout) →
            let kept := q.openList.filter fun f => decide (f.tag ≠ r.tag)
            u.iar = s.iar
              ∧ u.pair p = { q with
                  openList := kept, health := left kept q.lateList, est := est, hev := counted
                  counters := { q.counters with completed := q.counters.completed + 1 } }))
    ∧ (∀ e ∈ q.lateList, e.entry.tag = r.tag →
      let est := q.est.update q.desc (min (min (r.commitTime - e.entry.arrival).toNat q.desc.tceil) 1048575)
      ∃ u t, exec .corTakeRecord s = .next t ∧ HandedToEcho p r u t
        ∧ u = { s with commitQueue := rest, pairs := u.pairs, iar := u.iar }
        ∧ OtherPairs p s u ∧ (u.pair p).desc = q.desc ∧ (u.pair p).est = est
        ∧ (u.pair p).timeout = timeoutOf q.desc est s.vrd.factor
        ∧ (u.pair p).counters.late = q.counters.late + 1
        ∧ (u.pair p).counters.completed = q.counters.completed
        ∧ (u.source (pairSource p)).causes.getLsbD 2 = true ∧ (u.source (pairSource p)).pending = true
        ∧ (∀ f ∈ (u.pair p).openList, f.tag ≠ r.tag) ∧ (∀ f ∈ (u.pair p).lateList, f.entry.tag ≠ r.tag)
        ∧ (timeoutOf q.desc est s.vrd.factor = q.timeout →
            (∀ f ∈ q.lateList, f.entry.tag ≠ r.tag → (s.clock - f.lateSince).toNat < q.timeout) →
            let kept := q.lateList.filter fun f => decide (f.entry.tag ≠ r.tag)
            Posted (pairSource p) .late s u
              ∧ u.pair p = { q with
                  lateList := kept, health := left q.openList kept, est := est, hev := counted
                  counters := { q.counters with late := q.counters.late + 1 } }))

/-- A completion with HOLD set that finds its entry in the open list (R55) or in the late list (R57): below the hold limit the entry
is re-armed at the tail of the open list and the window counts a paired event; at the limit HOLD_LIMIT is posted and the entry is
unchanged. A record carrying OVERRUN taints the running window of an enabled pair in either case (R60, R90). With expect fetch yes
the record then goes to the ECH (R59, R109, R110). Stated where no head becomes due by the move. -/
def Obligations.CorHoldsARequest : Prop :=
  ∀ (p : PairIx) (r : Record) (rest : List Record) (s : State),
    HeadRecord s p r rest → prbSettled s → TagsDistinct s → (s.stream r.stream).desc.role = .completion →
    r.kind = .work → r.hold = true →
    (∀ oldest others, s.echo.entries = oldest :: others → PrbRests oldest others s) →
    (∀ f ∈ (s.pair p).openList, f.tag ≠ r.tag → (s.clock - f.arrival).toNat < (s.pair p).timeout) →
    (∀ f ∈ (s.pair p).lateList, f.entry.tag ≠ r.tag → (s.clock - f.lateSince).toNat < (s.pair p).timeout) →
    (s.clock - r.commitTime).toNat < (s.pair p).timeout →
    let q := s.pair p
    let tainted : Option EvalWindow := if q.health.enabled then
        q.hev.window.map fun w => if w.held then w else { w with taint := w.taint || r.overrun }
      else q.hev.window
    let paired : Option EvalWindow := if q.health.enabled then
        q.hev.window.map fun w =>
          if w.held then w else { w with taint := w.taint || r.overrun, paired := satInc w.paired }
      else q.hev.window
    let turnedAway (u : State) : Prop := Posted (pairSource p) .holdLimit s u
      ∧ u.pair p = { q with hev := { q.hev with window := tainted } }
    (∀ before e after, q.openList = before ++ e :: after → e.tag = r.tag →
      ∃ u t, exec .corTakeRecord s = .next t ∧ HandedToEcho p r u t
        ∧ u = { s with commitQueue := rest, pairs := u.pairs, iar := u.iar } ∧ OtherPairs p s u
        ∧ (if e.holdCount < q.desc.holdLimit then
            u.iar = s.iar
              ∧ u.pair p = { q with
                  openList := before ++ after ++ [{ e with holdCount := e.holdCount + 1, arrival := r.commitTime }]
                  hev := { q.hev with window := paired } }
          else turnedAway u))
    ∧ ∀ before e after, q.lateList = before ++ e :: after → e.entry.tag = r.tag →
      ∃ u t, exec .corTakeRecord s = .next t ∧ HandedToEcho p r u t
        ∧ u = { s with commitQueue := rest, pairs := u.pairs, iar := u.iar } ∧ OtherPairs p s u
        ∧ (if e.entry.holdCount < q.desc.holdLimit then
            u.iar = s.iar
              ∧ u.pair p = { q with
                  lateList := before ++ after
                  openList := q.openList ++
                    [{ e.entry with holdCount := e.entry.holdCount + 1, arrival := r.commitTime }]
                  hev := { q.hev with window := paired } }
          else turnedAway u)

/-- A completion that finds no entry is an orphan (R58): ORPHAN is posted, the orphans count rises and an enabled pair's window
counts an adverse event; a record carrying OVERRUN taints that window first (R60, R90). With expect fetch yes the record is handed
to the ECH after that, which watches its certain lines (R59, R109). With 64 entries on the echo list the oldest is dropped before the
append, counted, with ECHO_DROPPED posted to the list's source, and leaves the probe queue and the PRB as any retired entry does
(R110, R122). Stated where the PRB has no further line to take. -/
def Obligations.CorFindsAnOrphan : Prop :=
  ∀ (p : PairIx) (r : Record) (rest : List Record) (s : State),
    HeadRecord s p r rest → prbSettled s → (s.stream r.stream).desc.role = .completion → r.kind = .work →
    (∀ oldest others, s.echo.entries = oldest :: others → PrbRests oldest others s) →
    (∀ e ∈ (s.pair p).openList, e.tag ≠ r.tag) → (∀ e ∈ (s.pair p).lateList, e.entry.tag ≠ r.tag) →
    ∃ u t, exec .corTakeRecord s = .next t ∧ HandedToEcho p r u t
      ∧ u = { s with commitQueue := rest, pairs := u.pairs, iar := u.iar }
      ∧ OtherPairs p s u ∧ Posted (pairSource p) .orphan s u
      ∧ u.pair p = { s.pair p with
          counters := { (s.pair p).counters with orphans := (s.pair p).counters.orphans + 1 }
          hev := { (s.pair p).hev with
            window := if (s.pair p).health.enabled then
                (s.pair p).hev.window.map fun w =>
                  if w.held then w else { w with taint := w.taint || r.overrun, adverse := satInc w.adverse }
              else (s.pair p).hev.window } }

/-- QUIESCE and RESUME records by the pair's state, and the end of a pause by the quiesce limit (R98, R99, R100). A record carrying
OVERRUN taints the running window of an enabled pair before it is handled, so that the window that a RESUME starts is clean (R60,
R90). -/
def Obligations.QuiesceAndResume : Prop :=
  ∀ (p : PairIx) (r : Record) (rest : List Record) (s : State),
    let fresh : EvalWindow :=
      { held := s.tap.brstAsserted, start := s.clock, paired := 0, adverse := 0, taint := false }
    let tainted : Option EvalWindow := if (s.pair p).health.enabled then
        (s.pair p).hev.window.map fun w => if w.held then w else { w with taint := w.taint || r.overrun }
      else (s.pair p).hev.window
    let ignored : Pair := { s.pair p with hev := { (s.pair p).hev with
      window := tainted
      counters := { (s.pair p).hev.counters with ignored := satInc (s.pair p).hev.counters.ignored } } }
    let resumed (c : HealthCounters) : Pair := { s.pair p with
      health := .healthy
      hev := { (s.pair p).hev with
        quiesceStart := none, history := [], confirm := 0, promotionPending := false, window := some fresh
        counters := c } }
    (HeadRecord s p r rest → prbSettled s → (s.stream r.stream).desc.role = .completion →
      (r.kind = .quiesce → ∃ t, exec .corTakeRecord s = .next t ∧ t = { s with commitQueue := rest, pairs := t.pairs }
        ∧ OtherPairs p s t
        ∧ t.pair p = (match (s.pair p).health with
            | .healthy | .watch | .suspect => { s.pair p with
                health := .quiesced
                hev := { (s.pair p).hev with
                  window := tainted, confirm := 0, promotionPending := false, quiesceStart := some r.commitTime
                  counters := { (s.pair p).hev.counters with
                    quiesces := satInc (s.pair p).hev.counters.quiesces } } }
            | _ => ignored))
      ∧ (r.kind = .resume → ∃ t, exec .corTakeRecord s = .next t
        ∧ t = { s with commitQueue := rest, pairs := t.pairs } ∧ OtherPairs p s t
        ∧ t.pair p = (match (s.pair p).health with
            | .quiesced => resumed { (s.pair p).hev.counters with
                resumes := satInc (s.pair p).hev.counters.resumes }
            | _ => ignored)))
    ∧ ((s.pair p).health = .quiesced →
        (∃ c, (s.pair p).hev.quiesceStart = some c ∧ (s.pair p).desc.quiesceLimit ≤ (s.clock - c).toNat) →
        ∃ t, exec (.quiesceOverrun p) s = .next t ∧ t = { s with pairs := t.pairs, iar := t.iar }
          ∧ OtherPairs p s t ∧ Posted (pairSource p) .quiesceOverrun s t
          ∧ t.pair p = resumed { (s.pair p).hev.counters with
              overruns := satInc (s.pair p).hev.counters.overruns })

/-- A PULSE record, early or not (R105), and a missed interval (R106): the miss count, the interval reference, the last pulse time
and the counters; a pulse ends the stream's trigger, and the miss that raises the miss count to the miss limit of a stream with
fence yes makes it stand, which moves NORMAL and HOLDOFF to FAULT (R131, R133). -/
def Obligations.PulseSupervision : Prop :=
  ∀ (n : StreamIx) (r : Record) (rest : List Record) (s : State),
    let q := (s.stream n).pulse
    let early : Bool := match q.last with
      | some c => decide ((r.commitTime - c).toNat < (s.stream n).desc.minInterval)
      | none => false
    (s.commitQueue = r :: rest → r.stream = n → r.kind = .pulse → (s.stream n).desc.role = .pulse → prbSettled s →
      ∃ t, exec .corTakeRecord s = .next t
        ∧ t = { s with commitQueue := rest, streams := t.streams, iar := t.iar
                       vrd := { s.vrd with triggers := t.vrd.triggers } }
        ∧ OtherStreams n s t ∧ t.vrd.triggers.has (.stream n) = false
        ∧ (∀ m : Trigger, m ≠ .stream n → t.vrd.triggers.has m = s.vrd.triggers.has m)
        ∧ (if early then Posted (streamSource n) .pulseEarly s t else t.iar = s.iar)
        ∧ t.stream n = { s.stream n with pulse :=
            { last := some r.commitTime, timer := .running r.commitTime, missCount := 0, pulses := q.pulses + 1
              early := if early then satInc q.early else q.early, missed := q.missed } })
    ∧ (∀ c, q.missCount ≤ 15 → q.timer = .running c → (s.stream n).desc.maxInterval ≤ (s.clock - c).toNat →
        ∃ u t, exec (.pulseMissed n) s = .next t
          ∧ u = { s with streams := u.streams, iar := u.iar } ∧ OtherStreams n s u ∧ Posted (streamSource n) .pulseMissed s u
          ∧ u.stream n = { s.stream n with pulse := { q with
              missed := satInc q.missed, missCount := min (q.missCount + 1) 15, timer := .running s.clock
              last := if q.missCount = 14 then none else q.last } }
          ∧ (if (s.stream n).desc.fence = true ∧ (s.stream n).desc.missLimit = q.missCount + 1 ∧ q.missCount < 15 then
              TriggerJoins (.stream n) u t
            else t = u))

/-! ### The Latency Estimator -/

/-- The estimator takes a sample (R77, R78): the first seeds it, each later one moves M16 and D16 by their quotients rounded toward
zero, and both stay in their range. Then the timeout T (R79, R80): Tceil times F while the pair is arming, else the base, rounded
up, brought within Tfloor and Tceil and multiplied by F. -/
def Obligations.EstimatorAndTimeout : Prop :=
  (∀ (d : PairDesc) (e : Estimator) (l : Nat), l ≤ 1048575 →
    let toward (x : Int) (g : Nat) : Int := if 0 ≤ x then x / 2 ^ g else -((-x) / 2 ^ g)
    (e.n = 0 → e.update d l = { m16 := 16 * l, d16 := 8 * l, n := 1, lastSample := some l })
    ∧ (e.n ≠ 0 → e.m16 ≤ 16777200 → e.d16 ≤ 16777200 →
        let err : Int := 16 * (l : Int) - (e.m16 : Int)
        let dev : Int := |err| - (e.d16 : Int)
        ((e.update d l).m16 : Int) = (e.m16 : Int) + toward err d.gm
          ∧ ((e.update d l).d16 : Int) = (e.d16 : Int) + toward dev d.gd
          ∧ (e.update d l).n = min (e.n + 1) 255
          ∧ (e.update d l).lastSample = some l
          ∧ (e.update d l).m16 ≤ 16777200 ∧ (e.update d l).d16 ≤ 16777200))
  ∧ ∀ (d : PairDesc) (e : Estimator) (f : Nat), d.tfloor ≤ d.tceil →
    ∃ base, 16 * base < e.m16 + d.k * e.d16 + 16 ∧ e.m16 + d.k * e.d16 ≤ 16 * base
      ∧ timeoutOf d e f = (if e.n < d.armingCount then d.tceil * f
          else if base < d.tfloor then d.tfloor * f else if d.tceil < base then d.tceil * f else base * f)
      ∧ d.tfloor * f ≤ timeoutOf d e f ∧ timeoutOf d e f ≤ d.tceil * f

/-! ### Expiry, windows and health -/

/-- The head of an open list that has reached T expires (R62), and the head of a late list that has is lost (R63): the entry's move,
the cause, the count and the window's adverse event by the pair's health. A DRAINING pair whose last entry is lost becomes
DISABLED (R47). Stated for one head that is due, the one behind it not; then that, of however many, no head of the list is left
due, each new head being examined in turn. -/
def Obligations.ExpiryAndLoss : Prop :=
  (∀ (p : PairIx) (s : State), (s.pair p).health ≠ .disabled →
    let adverse : Option EvalWindow :=
      if (s.pair p).health = .draining ∨ (s.pair p).health = .quiesced then (s.pair p).hev.window
      else (s.pair p).hev.window.map fun w =>
        if w.taint = true ∨ w.held = true then w else { w with adverse := satInc w.adverse }
    (∀ e rest, (s.pair p).openList = e :: rest → (s.pair p).timeout ≤ (s.clock - e.arrival).toNat →
      (∀ f, rest.head? = some f → (s.clock - f.arrival).toNat < (s.pair p).timeout) →
      ∃ t, exec (.entryExpiry p) s = .next t ∧ t = { s with pairs := t.pairs, iar := t.iar } ∧ OtherPairs p s t
        ∧ (if (s.pair p).health = .quiesced then t.iar = s.iar
          else Posted (pairSource p) (if e.pickup.isSome then .expiredTouched else .expiredUntouched) s t)
        ∧ t.pair p = { s.pair p with
            openList := rest, lateList := (s.pair p).lateList ++ [{ entry := e, lateSince := s.clock }]
            hev := { (s.pair p).hev with window := adverse } })
    ∧ (∀ e rest, (s.pair p).lateList = e :: rest → (s.pair p).timeout ≤ (s.clock - e.lateSince).toNat →
      (∀ f, rest.head? = some f → (s.clock - f.lateSince).toNat < (s.pair p).timeout) →
      ∃ t, exec (.entryLoss p) s = .next t ∧ t = { s with pairs := t.pairs, iar := t.iar } ∧ OtherPairs p s t
        ∧ Posted (pairSource p) .lost s t
        ∧ t.pair p = { s.pair p with
            lateList := rest
            health := if (s.pair p).health = .draining ∧ (s.pair p).openList = [] ∧ rest = [] then .disabled
              else (s.pair p).health
            counters := { (s.pair p).counters with lost := (s.pair p).counters.lost + 1 }
            hev := { (s.pair p).hev with window := adverse } }))
  ∧ ∀ (p : PairIx) (s : State),
    (∃ t, exec (.entryExpiry p) s = .next t ∧ expiryDue t p = false
      ∧ (t.pair p).entryCount = (s.pair p).entryCount)
    ∧ ∃ t, exec (.entryLoss p) s = .next t ∧ entryLossDue t p = false
      ∧ (t.pair p).openList = (s.pair p).openList
      ∧ (t.pair p).counters.lost = (s.pair p).counters.lost
          + BitVec.ofNat 32 ((s.pair p).lateList.length - (t.pair p).lateList.length)

/-- The classification of an ended window (R88, R91, R101): it is recorded and counted, and handed to the history and health; then
the next window starts, at this boundary and with its counts 0 whatever the health did. For an IDLE window, or of a FAILED or
QUIESCED pair, nothing else changes (R92, R93, R96). -/
def Obligations.WindowEndClassifies : Prop :=
  ∀ (p : PairIx) (w : EvalWindow) (s : State),
    (s.pair p).hev.window = some w → w.held = false → (s.pair p).health.enabled = true →
    (s.pair p).desc.window ≤ (s.clock - w.start).toNat →
    let class_ : WindowClass :=
      if (s.pair p).health = .quiesced ∨ w.taint = true then .idle
      else if w.paired.toNat / 2 ^ (s.pair p).desc.toleranceShift < w.adverse.toNat then .bad
      else if 0 < w.paired.toNat then .good else .idle
    let c := (s.pair p).hev.counters
    let counted : HealthCounters := match class_ with
      | .good => { c with good := satInc c.good }
      | .bad => { c with bad := satInc c.bad }
      | .idle => { c with idle := satInc c.idle }
    let next : EvalWindow :=
      { held := s.tap.brstAsserted, start := s.clock, paired := 0, adverse := 0, taint := false }
    ∃ t, exec (.windowEnd p) s = .next t ∧ (t.pair p).hev.lastClass = some class_ ∧ (t.pair p).hev.window = some next
      ∧ (t.pair p).hev.counters.good = counted.good ∧ (t.pair p).hev.counters.bad = counted.bad
      ∧ (t.pair p).hev.counters.idle = counted.idle
      ∧ (class_ = .idle ∨ (s.pair p).health = .failed ∨ (s.pair p).health = .quiesced →
          t = { s with pairs := t.pairs } ∧ OtherPairs p s t
            ∧ t.pair p = { s.pair p with hev := { (s.pair p).hev with
                window := some next, lastClass := some class_, counters := counted } })

/-- A GOOD or BAD window of a HEALTHY, WATCH or SUSPECT pair (R92, R93, R94, R95): its sample joins the history, whose BAD samples
give the health; in SUSPECT the confirm counter rises, and at the confirm count the pair becomes FAILED, or its promotion is held
while it is deferred (R138). With fence yes the failure makes the pair's trigger stand (R96), which moves NORMAL and HOLDOFF to FAULT
(R131, R133). The next window starts after all of that (R88). -/
def Obligations.WindowEndMovesHealth : Prop :=
  ∀ (p : PairIx) (w : EvalWindow) (s : State),
    (s.pair p).hev.window = some w → w.held = false → w.taint = false → s.tap.brstAsserted = false →
    (s.pair p).health = .healthy ∨ (s.pair p).health = .watch ∨ (s.pair p).health = .suspect →
    (s.pair p).desc.window ≤ (s.clock - w.start).toNat →
    (w.paired.toNat / 2 ^ (s.pair p).desc.toleranceShift < w.adverse.toNat ∨ 0 < w.paired.toNat) →
    let bad : Bool := decide (w.paired.toNat / 2 ^ (s.pair p).desc.toleranceShift < w.adverse.toNat)
    let joined := (s.pair p).hev.history ++ [bad]
    let history := joined.drop (joined.length - 3)
    let bads := history.countP fun b => b
    let h := (s.pair p).hev
    let counted : HealthCounters :=
      if bad then { h.counters with bad := satInc h.counters.bad } else { h.counters with good := satInc h.counters.good }
    let ended : HealthRecord := { h with
      window := some { held := false, start := s.clock, paired := 0, adverse := 0, taint := false }
      lastClass := some (if bad then .bad else .good), history := history, counters := counted }
    let fails : Prop := 2 ≤ bads ∧ (s.pair p).health = .suspect
      ∧ (h.promotionPending = true ∨ (s.pair p).desc.confirmCount ≤ h.confirm + 1) ∧ promotionDeferred s = false
    ∃ t, exec (.windowEnd p) s = .next t
      ∧ (¬ (fails ∧ (s.pair p).desc.fence = true) →
          t = { s with pairs := t.pairs, iar := t.iar } ∧ OtherPairs p s t)
      ∧ (bads < 2 → t.iar = s.iar
          ∧ t.pair p = { s.pair p with
              health := if bads = 0 then .healthy else .watch
              hev := { ended with confirm := 0, promotionPending := false } })
      ∧ (2 ≤ bads → (s.pair p).health ≠ .suspect → Posted (pairSource p) .suspect s t
          ∧ t.pair p = { s.pair p with
              health := .suspect
              hev := { ended with
                confirm := 0, promotionPending := false
                counters := { counted with suspects := satInc counted.suspects } } })
      ∧ (2 ≤ bads → (s.pair p).health = .suspect → h.promotionPending = false →
          h.confirm + 1 < (s.pair p).desc.confirmCount → t.iar = s.iar
            ∧ t.pair p = { s.pair p with hev := { ended with confirm := h.confirm + 1 } })
      ∧ (2 ≤ bads → (s.pair p).health = .suspect → h.promotionPending = false →
          (s.pair p).desc.confirmCount ≤ h.confirm + 1 → promotionDeferred s = true →
          Posted (pairSource p) .suspectHeld s t
            ∧ t.pair p = { s.pair p with hev := { ended with confirm := h.confirm + 1, promotionPending := true } })
      ∧ (2 ≤ bads → (s.pair p).health = .suspect → h.promotionPending = true → promotionDeferred s = true →
          t.iar = s.iar ∧ t.pair p = { s.pair p with hev := ended })
      ∧ (fails → ∃ u v, (if (s.pair p).desc.fence then TriggerJoins (.pair p) u v else v = u)
          ∧ u = { s with pairs := u.pairs, iar := u.iar } ∧ OtherPairs p s u ∧ Posted (pairSource p) .failed s u
          ∧ u.pair p = failedPair { s.pair p with hev := { ended with window := some w } }
          ∧ t = { v with pairs := t.pairs } ∧ OtherPairs p v t
          ∧ t.pair p = { v.pair p with hev := { (v.pair p).hev with window := ended.window } })

/-! ### Echoes and probes -/

/-- The first overdue entry of the echo list (R115): UNREAD is counted, posted to its pair and counted in an enabled pair's window;
in OFF the entry is retired, in FETCH_CHECK it becomes QUEUED at the tail of the probe queue. Stated while the PRB takes no line
at that moment. Then an IDLE PRB takes the line of an entry that has just been queued (R119): its missing line of lowest index, at
the slot base plus 64 times the index, handed to an IDLE port, which asserts PREQ when PGNT is low (R14). -/
def Obligations.EchoOverdueIsJudged : Prop :=
  (∀ (before after : List EchoEntry) (e : EchoEntry) (s : State),
    s.echo.entries = before ++ e :: after → e.status = .watching →
    (s.pair e.pair).desc.echoDeadline ≤ (s.clock - e.commitTime).toNat →
    (∀ f ∈ before, f.status = .watching →
      (s.clock - f.commitTime).toNat < (s.pair f.pair).desc.echoDeadline) →
    (s.echo.fetchCheck = true → s.echo.prb ≠ .idle ∨ s.tap.brstAsserted = true) → prbSettled s →
    ∃ t, exec .echoOverdue s = .next t
      ∧ t = { s with
          iar := t.iar, pairs := t.pairs
          echo := { s.echo with
            entries := if s.echo.fetchCheck then before ++ { e with status := .queued } :: after else before ++ after
            probeQueue := if s.echo.fetchCheck then s.echo.probeQueue ++ [{ stream := e.stream, slot := e.slot }]
              else s.echo.probeQueue
            counters := { s.echo.counters with unread := satInc s.echo.counters.unread } } }
      ∧ Posted (pairSource e.pair) .unread s t ∧ OtherPairs e.pair s t
      ∧ t.pair e.pair = { s.pair e.pair with hev := { (s.pair e.pair).hev with
          window := if (s.pair e.pair).health.enabled then
              (s.pair e.pair).hev.window.map fun w => if w.held then w else { w with adverse := satInc w.adverse }
            else (s.pair e.pair).hev.window } })
  ∧ ∀ (e : EchoEntry) (s : State),
    s.echo.entries = [e] → e.status = .watching → s.echo.probeQueue = [] → s.echo.fetchCheck = true →
    (s.pair e.pair).desc.echoDeadline ≤ (s.clock - e.commitTime).toNat →
    s.echo.prb = .idle → s.echo.single.isBusy = false → s.tap.brstAsserted = false →
    s.tap.port.phase = .idle → s.tap.port.pgnt = false →
    ∀ i, i < 8 → e.written.getLsbD i = true → e.readMask.getLsbD i = false →
      (∀ j, j < i → e.written.getLsbD j = true → e.readMask.getLsbD j = true) →
      ∃ t, exec .echoOverdue s = .next t
        ∧ t.echo.entries = [{ e with status := .probing }] ∧ t.echo.probeQueue = []
        ∧ t.echo.prb = .requesting
            { purpose := .currentEntry, address := e.slotBase + BitVec.ofNat 36 (64 * i), index := i
              takenAt := s.clock, discard := false }
        ∧ t.tap = { s.tap with port := { s.tap.port with
            phase := .requesting, line := some (e.slotBase + BitVec.ofNat 36 (64 * i)) } }
        ∧ preq t = true ∧ t.vrd = s.vrd ∧ t.streams = s.streams ∧ t.commitQueue = s.commitQueue

/-- The probe handshake (R14, R15, R121). A grant in REQUESTING is taken: the target bank is OPEN with the target row and the PRB is
READING; any other grant changes nothing but the level seen. The data of a line restores the bank and releases PREQ. For the single
probe it ends it, OK with the data or OVERTAKEN by the void mark. For the current entry it joins the read sum if the line is still
missing; the PRB then takes the entry's next missing line, or with none the entry is compared and retired, CONFIRMED or MISMATCH
(R112, R113, R119); a line the adapter has read meanwhile, and a voided or discarded line, is dropped. Data that no read waits for
is discarded. PGNT seen low ends RELEASING, and a line that the PRB holds for the port is then handed over (R119). Stated where the
PRB has no line of another entry or of the single probe to take. That the whole sequence is placed at the grant, and that an operand
marks abandoned data, are the model's choice (notes/assumptions/11 and 28). -/
def Obligations.ProbeHandshake : Prop :=
  ∀ (a : LineAddr) (l : LineInHand) (data : LineData) (s : State),
    let bank := bankOfAddress s.straps.amap a
    (s.tap.port.phase = .requesting → s.tap.port.line = some a → s.echo.prb = .requesting l →
      ∃ t, exec .probeGrant s = .next t
        ∧ t = { s with
            tap := { s.tap with
              openRows := t.tap.openRows
              port := { phase := .reading, line := some a, voidMark := false, savedBank := s.tap.bank bank
                        pgnt := true } }
            echo := { s.echo with prb := .reading l } }
        ∧ t.tap.bank bank = .openRow (rowOfAddress s.straps.amap a)
        ∧ ∀ b, b ≠ bank → t.tap.bank b = s.tap.bank b)
    ∧ (s.tap.port.phase ≠ .requesting → exec .probeGrant s = .next
        { s with tap := { s.tap with port := { s.tap.port with pgnt := true } } })
    ∧ (s.tap.port.phase = .reading → s.tap.port.line = some a → s.echo.prb = .reading l →
        currentEntry s = none → s.echo.probeQueue = [] →
        (l.discard = true ∧ s.echo.single.isBusy = false
          ∨ l.discard = false ∧ l.purpose = .singleProbe ∧ ∃ b, s.echo.single = .busy b) →
        ∃ t, exec (.probeDataReturn data false) s = .next t
          ∧ t = { s with
              tap := { s.tap with
                openRows := t.tap.openRows, port := { s.tap.port with phase := .releasing, line := none } }
              echo := { s.echo with
                prb := .idle
                single := if l.discard then s.echo.single else (match s.echo.single with
                  | .busy b => .done b (if s.tap.port.voidMark then .overtaken else .ok data)
                  | x => x) } }
          ∧ t.tap.bank bank = s.tap.port.savedBank ∧ ∀ b, b ≠ bank → t.tap.bank b = s.tap.bank b)
    ∧ (∀ before e after, s.tap.port.phase = .reading → s.tap.port.line = some a → s.echo.prb = .reading l →
        l.purpose = .currentEntry → l.discard = false → s.echo.single.isBusy = false →
        s.echo.probeQueue = [] → s.echo.entries = before ++ e :: after → e.status = .probing →
        (∀ f ∈ before ++ after, f.status ≠ .probing) → s.tap.brstAsserted = false →
        let fits : Bool := !s.tap.port.voidMark && e.written.getLsbD l.index && !e.readMask.getLsbD l.index
        let e' : EchoEntry := if fits then { e with
            readMask := e.readMask ||| BitVec.ofNat 8 (2 ^ l.index), readSum := e.readSum + contribution l.index data }
          else e
        let complete : Prop := fits = true ∧ e'.readMask = e.written
        ∃ t, exec (.probeDataReturn data false) s = .next t
          ∧ t = { s with
              tap := { s.tap with
                openRows := t.tap.openRows, port := { s.tap.port with phase := .releasing, line := none } }
              echo := t.echo, iar := t.iar, pairs := t.pairs }
          ∧ t.tap.bank bank = s.tap.port.savedBank ∧ (∀ b, b ≠ bank → t.tap.bank b = s.tap.bank b)
          ∧ (¬ complete → t.iar = s.iar ∧ t.pairs = s.pairs
            ∧ t.echo = { s.echo with entries := before ++ e' :: after, prb := t.echo.prb }
            ∧ (∀ i, i < 8 → e'.written.getLsbD i = true → e'.readMask.getLsbD i = false →
                (∀ j, j < i → e'.written.getLsbD j = true → e'.readMask.getLsbD j = true) →
                t.echo.prb = .requesting
                  { purpose := .currentEntry, address := e.slotBase + BitVec.ofNat 36 (64 * i), index := i
                    takenAt := s.clock, discard := false })
            ∧ ((∀ i, i < 8 → e'.written.getLsbD i = true → e'.readMask.getLsbD i = true) → t.echo.prb = .idle))
          ∧ (complete → e'.readSum = e.expected → t.iar = s.iar ∧ t.pairs = s.pairs
            ∧ t.echo = { s.echo with
                entries := before ++ after, prb := .idle
                counters := { s.echo.counters with confirmed := satInc s.echo.counters.confirmed } })
          ∧ (complete → e'.readSum ≠ e.expected → Posted (pairSource e.pair) .mismatch s t ∧ OtherPairs e.pair s t
            ∧ t.echo = { s.echo with
                entries := before ++ after, prb := .idle
                counters := { s.echo.counters with mismatched := satInc s.echo.counters.mismatched } }
            ∧ t.pair e.pair = { s.pair e.pair with hev := { (s.pair e.pair).hev with
                window := if (s.pair e.pair).health.enabled then
                    (s.pair e.pair).hev.window.map fun w =>
                      if w.held then w else { w with adverse := satInc w.adverse }
                  else (s.pair e.pair).hev.window } }))
    ∧ exec (.probeDataReturn data true) s = .next s
    ∧ (s.tap.port.phase ≠ .reading → exec (.probeDataReturn data false) s = .next s)
    ∧ (s.tap.port.phase = .releasing → s.tap.port.line = some a → exec .probeGrantReleased s = .next
        { s with tap := { s.tap with port := { s.tap.port with phase := .requesting, pgnt := false } } })
    ∧ (s.tap.port.phase = .releasing → s.tap.port.line = none → (∀ h, s.echo.prb ≠ .requesting h) → prbSettled s →
        exec .probeGrantReleased s = .next
          { s with tap := { s.tap with port := { s.tap.port with phase := .idle, voidMark := false, pgnt := false } } })
    ∧ (s.tap.port.phase = .releasing → s.tap.port.line = none → s.echo.prb = .requesting l →
        ∃ t, exec .probeGrantReleased s = .next t ∧ preq t = true
          ∧ t = { s with tap := { s.tap with port := { s.tap.port with
              phase := .requesting, line := some l.address, voidMark := false, pgnt := false } } })
    ∧ (s.tap.port.phase ≠ .releasing → exec .probeGrantReleased s = .next
        { s with tap := { s.tap with port := { s.tap.port with pgnt := false } } })

/-- A line in hand whose wait has reached the grant wait limit starves (R120, R122): it is withdrawn from the port, or dropped when
the port has not taken it; the single probe ends STARVED, or the current entry is retired with the finding STARVED against its pair
(R113). Stated where the PRB has no further line to take. -/
def Obligations.GrantWaitStarves : Prop :=
  ∀ (l : LineInHand) (s : State),
    s.echo.prb = .requesting l → s.echo.waitLimit ≤ (s.clock - l.takenAt).toNat → s.echo.probeQueue = [] →
    let port : ProbePort :=
      if s.tap.port.line.isSome ∧ s.tap.port.phase ≠ .reading then
        { s.tap.port with phase := .releasing, line := none }
      else s.tap.port
    (l.purpose = .singleProbe → (∃ b, s.echo.single = .busy b) → currentEntry s = none →
      ∃ b, s.echo.single = .busy b ∧ exec .grantWaitExpiry s = .next
        { s with tap := { s.tap with port := port }
                 echo := { s.echo with prb := .idle, single := .done b .starved } })
    ∧ (∀ before e after, l.purpose = .currentEntry → s.echo.single.isBusy = false →
        s.echo.entries = before ++ e :: after → e.status = .probing → (∀ f ∈ before ++ after, f.status = .watching) →
        ∃ t, exec .grantWaitExpiry s = .next t
          ∧ t = { s with
              tap := { s.tap with port := port }, iar := t.iar, pairs := t.pairs
              echo := { s.echo with
                prb := .idle, entries := before ++ after
                counters := { s.echo.counters with starved := satInc s.echo.counters.starved } } }
          ∧ Posted (pairSource e.pair) .starved s t ∧ OtherPairs e.pair s t
          ∧ t.pair e.pair = { s.pair e.pair with hev := { (s.pair e.pair).hev with
              window := if (s.pair e.pair).health.enabled then
                  (s.pair e.pair).hev.window.map fun w =>
                    if w.held then w else { w with adverse := satInc w.adverse }
                else (s.pair e.pair).hev.window } })

/-! ### The board verdict -/

/-- A judgement of CALM_N (R134, R135, R136): the level is recorded; while the part itself drives the line it is low and not used; in
NORMAL a low level with hold-off enabled enters HOLDOFF, F becomes the hold-off factor and every T is recomputed with it; in
HOLDOFF it acts on the high run. -/
def Obligations.CalmIsJudged : Prop :=
  ∀ (lineHigh : Bool) (s : State),
    (s.vrd.verdict = .fault → exec (.calmNJudgement lineHigh) s = .next
      { s with vrd := { s.vrd with sensedHigh := lineHigh && !s.vrd.settings.alarmDrive } })
    ∧ (s.vrd.verdict = .normal → (lineHigh = true ∨ s.vrd.settings.holdoffLimit = 0) →
        exec (.calmNJudgement lineHigh) s = .next { s with vrd := { s.vrd with sensedHigh := lineHigh } })
    ∧ (s.vrd.verdict = .normal → lineHigh = false → s.vrd.settings.holdoffLimit ≠ 0 →
        ∃ t, exec (.calmNJudgement lineHigh) s = .next t
          ∧ t = { s with
              pairs := t.pairs, iar := t.iar
              vrd := { s.vrd with
                sensedHigh := false, factor := s.vrd.settings.holdoffFactor
                verdict := .holdoff { entryTime := s.clock, highRunStart := none, limitPassed := false }
                counters := { s.vrd.counters with holdoffs := satInc s.vrd.counters.holdoffs } } }
          ∧ PostedAt boardSource .holdoffEntered s t
          ∧ ∀ p : PairIx, (t.pair p).desc = (s.pair p).desc ∧ (t.pair p).est = (s.pair p).est
              ∧ (t.pair p).timeout = timeoutOf (s.pair p).desc (s.pair p).est s.vrd.settings.holdoffFactor)
    ∧ (∀ h, s.vrd.verdict = .holdoff h →
        let since : Clock := (match h.highRunStart with | none => s.clock | some c => c)
        exec (.calmNJudgement lineHigh) s = .next
          { s with vrd := { s.vrd with
              sensedHigh := lineHigh
              verdict := .holdoff { h with highRunStart := if lineHigh = true then some since else none } } })

/-- The end of a hold-off and the passing of its limit (R136, R137, R95). The release makes the verdict NORMAL and F 1, and every T is
recomputed. The passing sets the flag, posts HOLDOFF_LIMIT and is counted, and every pending pair becomes FAILED; nothing else
changes, unless one of them has fence yes and no trigger in the set yet. Then one of those moves the verdict to FAULT, and the hold-off
ends in it (R131, R133); which of several is first is left open (notes/assumptions/30). -/
def Obligations.HoldoffEndsAndPasses : Prop :=
  ∀ (h : HoldOff) (s : State), s.vrd.verdict = .holdoff h →
    (∀ c, h.highRunStart = some c → s.vrd.settings.releaseSettle ≤ (s.clock - c).toNat →
      ∃ t, exec .holdoffRelease s = .next t
        ∧ t = { s with pairs := t.pairs, iar := t.iar, vrd := { s.vrd with verdict := .normal, factor := 1 } }
        ∧ t.source boardSource = s.source boardSource
        ∧ ∀ p : PairIx, (t.pair p).desc = (s.pair p).desc ∧ (t.pair p).est = (s.pair p).est
            ∧ (t.pair p).timeout = timeoutOf (s.pair p).desc (s.pair p).est 1
            ∧ (t.pair p).hev.promotionPending = (s.pair p).hev.promotionPending)
    ∧ (h.limitPassed = false → s.vrd.settings.holdoffLimit ≠ 0 →
        s.vrd.settings.holdoffLimit ≤ (s.clock - h.entryTime).toNat →
        ∃ u t, exec .holdoffLimit s = .next t ∧ Posted boardSource .holdoffLimit s u
          ∧ u = { s with
              iar := u.iar
              vrd := { s.vrd with
                verdict := .holdoff { h with limitPassed := true }
                counters := { s.vrd.counters with limitPasses := satInc s.vrd.counters.limitPasses } } }
          ∧ ((∀ p : PairIx, promotesTrigger s p = false) →
              t = { u with iar := t.iar, pairs := t.pairs } ∧ PendingFailed u t
                ∧ (∀ j : SourceIx, (∀ p : PairIx, j ≠ pairSource p) → t.source j = u.source j)
                ∧ t.iar.thresholdA = u.iar.thresholdA ∧ t.iar.thresholdB = u.iar.thresholdB)
          ∧ ((∃ p : PairIx, promotesTrigger s p = true) →
              ∃ p : PairIx, promotesTrigger s p = true ∧ FaultFromHoldoff (.pair p) u t))


/-! ### The managers' commands -/

/-- SET_STREAM (R17): the four checks in their order, and the descriptor written whole with each tuning field clamped; CLAMPED when
any was. -/
def Obligations.SetStreamIsTaken : Prop :=
  ∀ (l : Manager) (o : SetStreamOps) (s : State),
    let c := Instr.setStream l o
    ((o.stream.toNat = 0 ∨ 16 < o.stream.toNat) → Answers l c s s .range)
    ∧ ∀ n : StreamIx, o.stream.toNat = n.1 + 1 →
      let x := s.stream n
      let structural : Prop := o.role.toNat ≤ 2 ∧ o.slotSize.toNat ≤ 3 ∧ o.commitMode.toNat ≤ 1
        ∧ o.lapPolarity.toNat ≤ 1 ∧ o.fence.toNat ≤ 1 ∧ o.base.toNat % 4096 = 0
        ∧ (∃ k, 1 ≤ k ∧ k ≤ 12 ∧ o.slotCount.toNat = 2 ^ k)
        ∧ o.base.toNat + o.slotCount.toNat * (64 * 2 ^ o.slotSize.toNat) ≤ 2 ^ 36
      let role : Role := match o.role.toNat with | 0 => .request | 1 => .completion | _ => .pulse
      let named : Prop := ∃ p : PairIx,
        (s.pair p).desc.requestStream = some n ∨ (s.pair p).desc.completionStream = some n
      let d : StreamDesc :=
        { role := role, base := o.base.toNat
          slotSize := match o.slotSize.toNat with | 0 => .bytes64 | 1 => .bytes128 | 2 => .bytes256 | _ => .bytes512
          slotCount := o.slotCount.toNat, marker := o.marker
          commitMode := if o.commitMode.toNat = 0 then .header else .tail
          lapPolarity := if o.lapPolarity.toNat = 0 then .normal else .inverted
          reorderSpan := min (max o.reorderSpan.toNat 1) 4, silenceLimit := min o.silenceLimit.toNat 16777215
          assemblyLimit := min (max o.assemblyLimit.toNat 10) 65535
          minInterval := min o.minInterval.toNat 16777215
          maxInterval := max (min (max o.maxInterval.toNat 1) 16777215) (min o.minInterval.toNat 16777215)
          missLimit := min (max o.missLimit.toNat 1) 15, fence := decide (o.fence.toNat = 1) }
      (x.enabled = true → Answers l c s s .busy)
      ∧ (x.enabled = false → ¬ structural → Answers l c s s .range)
      ∧ (x.enabled = false → structural → role ≠ x.desc.role → named → Answers l c s s .range)
      ∧ (x.enabled = false → structural → (role = x.desc.role ∨ ¬ named) → ∃ t : State,
          Answers l c s t (if d.reorderSpan = o.reorderSpan.toNat ∧ d.silenceLimit = o.silenceLimit.toNat
              ∧ d.assemblyLimit = o.assemblyLimit.toNat ∧ d.minInterval = o.minInterval.toNat
              ∧ d.maxInterval = o.maxInterval.toNat ∧ d.missLimit = o.missLimit.toNat then .ok else .clamped)
          ∧ t = { s with streams := t.streams } ∧ OtherStreams n s t ∧ t.stream n = { x with desc := d })

/-- ENABLE_STREAM (R18) and DISABLE_STREAM (R19), with the pulse state of the stream (R104), its fence trigger (R106) and its entries
in the echo list (R126). The disable is stated where none of those entries is QUEUED or PROBING and the PRB takes no line at
that moment. -/
def Obligations.StreamsEnterAndLeaveService : Prop :=
  ∀ (l : Manager) (b : Byte) (s : State), RangesHold s →
    let windows (t : State) : Prop :=
      ∀ w : Window, w ∈ t.tap.lookup ↔ ∃ m : StreamIx, (t.stream m).enabled = true
        ∧ w = { stream := m, base := (t.stream m).desc.base, slotBytes := (t.stream m).desc.slotSize.bytes
                slotCount := (t.stream m).desc.slotCount }
    ((b.toNat = 0 ∨ 16 < b.toNat) →
      Answers l (.enableStream l b) s s .range ∧ Answers l (.disableStream l b) s s .range)
    ∧ ∀ n : StreamIx, b.toNat = n.1 + 1 →
      let x := s.stream n
      let inWindow (d : StreamDesc) (a : Nat) : Prop := d.base ≤ a ∧ a < d.base + d.slotCount * d.slotSize.bytes
      let overlaps : Prop := ∃ (m : StreamIx) (a : Nat), (s.stream m).enabled = true
        ∧ inWindow x.desc a ∧ inWindow (s.stream m).desc a
      (x.enabled = true → Answers l (.enableStream l b) s s .busy)
      ∧ (x.enabled = false → overlaps → Answers l (.enableStream l b) s s .overlap)
      ∧ (x.enabled = false → ¬ overlaps → ∃ t : State, Answers l (.enableStream l b) s t .ok
          ∧ t = { s with streams := t.streams, tap := { s.tap with lookup := t.tap.lookup } } ∧ windows t
          ∧ OtherStreams n s t
          ∧ t.stream n =
              { desc := x.desc, enabled := true, assemblies := [], seq := .unsynchronised, overrunPending := false
                silent := false, lastAccepted := s.clock
                counters := { accepted := 0, dropped := 0, gaps := 0, gapTotal := 0, lost := 0, torn := 0
                              abandoned := 0, unassembled := 0, silences := 0 }
                pulse := { last := none, missCount := 0, pulses := 0, early := 0, missed := 0
                           timer := if x.desc.role ≠ .pulse then .stopped
                             else if s.tap.brstAsserted then .held else .running s.clock } })
      ∧ (x.enabled = false → Answers l (.disableStream l b) s s .ok)
      ∧ (x.enabled = true → (∀ e ∈ s.echo.entries, e.stream = n → e.status = .watching) → prbSettled s →
          ∃ t : State, Answers l (.disableStream l b) s t .ok
            ∧ t = { s with
                streams := t.streams, tap := { s.tap with lookup := t.tap.lookup }
                commitQueue := s.commitQueue.filter fun r => decide (r.stream ≠ n)
                echo := { s.echo with
                  entries := s.echo.entries.filter fun e => decide (e.stream ≠ n)
                  counters := { s.echo.counters with withdrawn := t.echo.counters.withdrawn } }
                vrd := { s.vrd with triggers := t.vrd.triggers } }
            ∧ windows t ∧ OtherStreams n s t
            ∧ t.stream n =
                { x with
                  enabled := false, assemblies := [], seq := .unsynchronised, overrunPending := false, silent := false
                  pulse := { x.pulse with last := none, timer := .stopped, missCount := 0 } }
            ∧ t.echo.counters.withdrawn.toNat = min (s.echo.counters.withdrawn.toNat
                + s.echo.entries.countP fun e => decide (e.stream = n)) 65535
            ∧ t.vrd.triggers.has (.stream n) = false
            ∧ ∀ m : Trigger, m ≠ .stream n → t.vrd.triggers.has m = s.vrd.triggers.has m)

/-- SET_PAIR (R43, R44): the six checks, the descriptor written whole with each tuning field clamped, and T recomputed from it (R82);
CLAMPED when any field was. -/
def Obligations.SetPairIsTaken : Prop :=
  ∀ (l : Manager) (o : SetPairOps) (s : State),
    let c := Instr.setPair l o
    ((o.pair.toNat = 0 ∨ 8 < o.pair.toNat) → Answers l c s s .range)
    ∧ ∀ p : PairIx, o.pair.toNat = p.1 + 1 →
      let q := s.pair p
      let fits (field : Byte) (role : Role) : Prop := ∀ n : StreamIx, field.toNat = n.1 + 1 →
        (s.stream n).desc.role = role
          ∧ ∀ r : PairIx, r ≠ p →
              (s.pair r).desc.requestStream ≠ some n ∧ (s.pair r).desc.completionStream ≠ some n
      let tfloor := min (max o.tfloor.toNat 1) 1048575
      let tceil := min (max o.tceil.toNat 1) 1048575
      let valid : Prop := o.requestStream.toNat ≤ 16 ∧ o.completionStream.toNat ≤ 16 ∧ o.expectFetch.toNat ≤ 1
        ∧ o.fence.toNat ≤ 1 ∧ fits o.requestStream .request ∧ fits o.completionStream .completion ∧ tfloor ≤ tceil
      (q.health ≠ .disabled → Answers l c s s .busy)
      ∧ (q.health = .disabled → ¬ valid → Answers l c s s .range)
      ∧ (q.health = .disabled → valid → ∃ (t : State) (d : PairDesc),
          Answers l c s t (if d.quota = o.quota.toNat ∧ d.holdLimit = o.holdLimit.toNat ∧ d.gm = o.gm.toNat
              ∧ d.gd = o.gd.toNat ∧ d.k = o.k.toNat ∧ tfloor = o.tfloor.toNat ∧ tceil = o.tceil.toNat
              ∧ d.armingCount = o.armingCount.toNat ∧ d.window = o.window.toNat
              ∧ d.toleranceShift = o.toleranceShift.toNat ∧ d.confirmCount = o.confirmCount.toNat
              ∧ d.quiesceLimit = o.quiesceLimit.toNat ∧ d.echoDeadline = o.echoDeadline.toNat then .ok else .clamped)
          ∧ (match d.requestStream with
              | none => o.requestStream.toNat = 0
              | some n => o.requestStream.toNat = n.1 + 1)
          ∧ (match d.completionStream with
              | none => o.completionStream.toNat = 0
              | some n => o.completionStream.toNat = n.1 + 1)
          ∧ d =
              { requestStream := d.requestStream, completionStream := d.completionStream
                quota := min (max o.quota.toNat 1) 2048, holdLimit := min o.holdLimit.toNat 7
                gm := min (max o.gm.toNat 1) 6, gd := min (max o.gd.toNat 1) 6, k := min (max o.k.toNat 1) 15
                tfloor := tfloor, tceil := tceil, armingCount := min (max o.armingCount.toNat 1) 64
                window := min (max o.window.toNat 1000) 65535, toleranceShift := min o.toleranceShift.toNat 15
                confirmCount := min (max o.confirmCount.toNat 1) 15
                quiesceLimit := min (max o.quiesceLimit.toNat 100) 16777215
                expectFetch := decide (o.expectFetch.toNat = 1)
                echoDeadline := min (max o.echoDeadline.toNat 10) 65535, fence := decide (o.fence.toNat = 1) }
          ∧ t = { s with pairs := t.pairs } ∧ OtherPairs p s t
          ∧ t.pair p = { q with desc := d, timeout := timeoutOf d q.est s.vrd.factor })

/-- ENABLE_PAIR (R45), RETIRE_PAIR (R46) and CLEAR_PAIR (R97), with what the HEV keeps of the pair (R88, R102): which states refuse
each, and the state that each leaves. -/
def Obligations.PairsEnterAndLeaveService : Prop :=
  ∀ (l : Manager) (b : Byte) (s : State), EntriesHold s → RangesHold s →
    let fresh : EvalWindow :=
      { held := s.tap.brstAsserted, start := s.clock, paired := 0, adverse := 0, taint := false }
    ((b.toNat = 0 ∨ 8 < b.toNat) → Answers l (.enablePair l b) s s .range
      ∧ Answers l (.retirePair l b) s s .range ∧ Answers l (.clearPair l b) s s .range)
    ∧ ∀ p : PairIx, b.toNat = p.1 + 1 →
      let q := s.pair p
      let named : Prop := q.desc.requestStream.isSome = true ∧ q.desc.completionStream.isSome = true
      (q.health ≠ .disabled → Answers l (.enablePair l b) s s .busy)
      ∧ (q.health = .disabled → ¬ named → Answers l (.enablePair l b) s s .range)
      ∧ (q.health = .disabled → named → ∃ t : State, Answers l (.enablePair l b) s t .ok
          ∧ t = { s with pairs := t.pairs } ∧ OtherPairs p s t
          ∧ t.pair p =
              { desc := q.desc, health := .healthy, openList := [], lateList := []
                counters := { tracked := 0, completed := 0, late := 0, lost := 0, discarded := 0, orphans := 0
                              untracked := 0 }
                est := { m16 := 0, d16 := 0, n := 0, lastSample := none }
                timeout := q.desc.tceil * s.vrd.factor
                hev := { window := some fresh, history := [], lastClass := none, confirm := 0
                         promotionPending := false, quiesceStart := none
                         counters := { good := 0, bad := 0, idle := 0, suspects := 0, failures := 0, quiesces := 0
                                       resumes := 0, overruns := 0, ignored := 0 } } })
      ∧ (q.health = .failed → Answers l (.retirePair l b) s s .busy)
      ∧ ((q.health = .disabled ∨ q.health = .draining) → Answers l (.retirePair l b) s s .ok)
      ∧ ((q.health = .healthy ∨ q.health = .watch ∨ q.health = .suspect ∨ q.health = .quiesced) →
          ∃ t : State, Answers l (.retirePair l b) s t .ok ∧ t = { s with pairs := t.pairs } ∧ OtherPairs p s t
          ∧ t.pair p =
              { q with
                health := if q.openList = [] ∧ q.lateList = [] then .disabled else .draining
                hev := { q.hev with
                  window := none, quiesceStart := none, confirm := 0, promotionPending := false } })
      ∧ (q.health ≠ .failed → Answers l (.clearPair l b) s s .range)
      ∧ (q.health = .failed → ∃ t : State, Answers l (.clearPair l b) s t .ok
          ∧ t = { s with pairs := t.pairs, vrd := { s.vrd with triggers := t.vrd.triggers } } ∧ OtherPairs p s t
          ∧ t.pair p =
              { q with
                health := .healthy
                hev := { q.hev with history := [], confirm := 0, promotionPending := false, window := some fresh } }
          ∧ (q.desc.fence = true → t.vrd.triggers.has (.pair p) = false)
          ∧ (q.desc.fence = false → t.vrd.triggers = s.vrd.triggers)
          ∧ ∀ m : Trigger, m ≠ .pair p → t.vrd.triggers.has m = s.vrd.triggers.has m)

/-- SET_SOURCE (R145) writes the configuration of one source alone, and SET_THRESHOLD (R147) one threshold, each from either link;
values above 15 are clamped. -/
def Obligations.SourcesAreConfigured : Prop :=
  ∀ (l : Manager) (o : SetSourceOps) (target value : Byte) (s : State),
    let c := Instr.setSource l o
    let codes : Prop := o.enable.toNat ≤ 1 ∧ o.target.toNat ≤ 1 ∧ o.trigger.toNat ≤ 1
    ((o.source.toNat = 0 ∨ 27 < o.source.toNat) → Answers l c s s .range)
    ∧ (¬ codes → Answers l c s s .range)
    ∧ (∀ i : SourceIx, o.source.toNat = i.1 + 1 → codes → ∃ t : State,
        Answers l c s t (if 15 < o.priority.toNat then .clamped else .ok)
        ∧ t = { s with iar := t.iar } ∧ OtherSources i s t
        ∧ t.source i =
            { s.source i with
              priority := min o.priority.toNat 15, enable := decide (o.enable.toNat = 1)
              target := if o.target.toNat = 0 then .A else .B
              trigger := if o.trigger.toNat = 0 then .latched else .level })
    ∧ (1 < target.toNat → Answers l (.setThreshold l target value) s s .range)
    ∧ (target.toNat = 0 → Answers l (.setThreshold l target value) s
        { s with iar := { s.iar with thresholdA := min value.toNat 15 } }
        (if 15 < value.toNat then .clamped else .ok))
    ∧ (target.toNat = 1 → Answers l (.setThreshold l target value) s
        { s with iar := { s.iar with thresholdB := min value.toNat 15 } }
        (if 15 < value.toNat then .clamped else .ok))

/-- The standing conditions (R148), the winner and the attention line of a link's target (R149, R150), CLAIM, which reports the winner
(R151), and ACKNOWLEDGE (R152), which judges the target, then pending, then for a LEVEL source the standing condition. -/
def Obligations.ClaimsAndAcknowledgements : Prop :=
  ∀ (l : Manager) (s : State),
    let claims (i : SourceIx) : Prop := (s.source i).pending = true ∧ (s.source i).enable = true
      ∧ (s.source i).target = l
      ∧ (match l with | .A => s.iar.thresholdA | .B => s.iar.thresholdB) < (s.source i).priority
    (∀ n : StreamIx, standing s (streamSource n) = true ↔
        (s.stream n).silent = true ∨ 1 ≤ (s.stream n).pulse.missCount)
    ∧ (∀ p : PairIx, standing s (pairSource p) = true ↔
        (s.pair p).health = .watch ∨ (s.pair p).health = .suspect ∨ (s.pair p).health = .failed
          ∨ (s.pair p).hev.promotionPending = true)
    ∧ (standing s echoSource = true ↔ s.echo.entries.length = 64)
    ∧ (standing s commitSource = true ↔ s.commitQueue.length = 4)
    ∧ (standing s boardSource = true ↔ s.vrd.verdict ≠ .normal)
    ∧ (attentionLow s l = true ↔ ∃ i, claims i)
    ∧ ((∀ i, ¬ claims i) → Reports l (.claim l) s (List.replicate 19 0))
    ∧ (∀ i, claims i → (∀ j, claims j → (s.source j).priority < (s.source i).priority
          ∨ ((s.source j).priority = (s.source i).priority ∧ i.1 ≤ j.1)) →
        Reports l (.claim l) s
          ([BitVec.ofNat 8 (i.1 + 1), BitVec.ofNat 8 (s.source i).priority]
            ++ leBytes 2 (s.source i).causes.toNat ++ [(s.source i).count]
            ++ optionalStamp (s.source i).firstStamp ++ optionalStamp (s.source i).lastStamp))
    ∧ ∀ b : Byte,
      let c := Instr.acknowledge l b
      ((b.toNat = 0 ∨ 27 < b.toNat) → Answers l c s s .range)
      ∧ ∀ i : SourceIx, b.toNat = i.1 + 1 →
        let still : Bool := decide ((s.source i).trigger = .level) && standing s i
        ((s.source i).target ≠ l → Answers l c s s .notOwner)
        ∧ ((s.source i).target = l → (s.source i).pending = false → Answers l c s s .ok)
        ∧ ((s.source i).target = l → (s.source i).pending = true → ∃ t : State,
            Answers l c s t (if still then .still else .ok)
            ∧ t = { s with iar := t.iar } ∧ OtherSources i s t
            ∧ t.source i =
                { s.source i with
                  causes := 0, count := 0, firstStamp := none, lastStamp := none, pending := still })

/-- SET_VERDICT (R129, R130) writes the six settings at once and acts on the verdict by its state: on a channel loss that stands, on a
limit that the absence count has reached, and in HOLDOFF by the hold-off limit, the release settle and the factor. CLEAR_BOARD
(R139) returns FAULT to NORMAL once no trigger stands. That the effects follow one another in the order of R130 is the model's
reading (notes/assumptions/29). -/
def Obligations.VerdictIsSetAndCleared : Prop :=
  ∀ (l : Manager) (o : SetVerdictOps) (s : State),
    let c := Instr.setVerdict l o
    let codes : Prop := (o.holdoffFactor.toNat = 1 ∨ o.holdoffFactor.toNat = 2 ∨ o.holdoffFactor.toNat = 4)
      ∧ o.fenceOnLoss.toNat ≤ 1 ∧ o.alarmDrive.toNat ≤ 1
    let v : VerdictSettings :=
      { channelLossLimit := min o.channelLossLimit.toNat 65535, fenceOnLoss := decide (o.fenceOnLoss.toNat = 1)
        alarmDrive := decide (o.alarmDrive.toNat = 1), holdoffFactor := o.holdoffFactor.toNat
        releaseSettle := min (max o.releaseSettle.toNat 1) 65535
        holdoffLimit := min o.holdoffLimit.toNat 16777215 }
    let stored : State := { s with vrd := { s.vrd with settings := v } }
    let timeouts (t : State) (f : Nat) : Prop := t.vrd.factor = f ∧ ∀ p : PairIx,
      (t.pair p).timeout = timeoutOf (s.pair p).desc (s.pair p).est f
    let lossRests : Prop := match s.tap.presence with
      | .running => True
      | .stopped => v.channelLossLimit = 0 ∨ s.tap.absence < v.channelLossLimit
      | .lost => v.fenceOnLoss = s.vrd.settings.fenceOnLoss
    (¬ codes → Answers l c s s .range)
    ∧ (codes → ∃ t : State,
        Answers l c s t (if v.channelLossLimit = o.channelLossLimit.toNat ∧ v.releaseSettle = o.releaseSettle.toNat
          ∧ v.holdoffLimit = o.holdoffLimit.toNat then .ok else .clamped)
        ∧ t.vrd.settings = v ∧ t.tap = { s.tap with presence := t.tap.presence }
        ∧ t.streams = s.streams ∧ t.commitQueue = s.commitQueue ∧ t.echo = s.echo
        ∧ (s.tap.presence = .stopped → v.channelLossLimit ≠ 0 → v.channelLossLimit ≤ s.tap.absence →
            t.tap.presence = .lost ∧ t.vrd.counters.channelLosses = satInc s.vrd.counters.channelLosses
              ∧ (v.fenceOnLoss = true → s.vrd.triggers.channelLoss = false →
                  t.vrd.triggers.channelLoss = true ∧ bflt t = true))
        ∧ (s.tap.presence = .lost → s.vrd.settings.fenceOnLoss = false → v.fenceOnLoss = true →
            t.tap.presence = .lost ∧ t.vrd.triggers.channelLoss = true
              ∧ (s.vrd.triggers.channelLoss = false → bflt t = true))
        ∧ (s.tap.presence = .lost → s.vrd.settings.fenceOnLoss = true → v.fenceOnLoss = false →
            s.vrd.verdict = .fault →
            t = { stored with vrd := { stored.vrd with triggers := { s.vrd.triggers with channelLoss := false } } })
        ∧ (lossRests → (∀ h, s.vrd.verdict ≠ .holdoff h) → t = stored)
        ∧ (∀ h, lossRests → s.vrd.verdict = .holdoff h →
            let passing : Prop := h.limitPassed = false ∧ v.holdoffLimit ≠ 0
              ∧ v.holdoffLimit ≤ (s.clock - h.entryTime).toNat
            let settled : Prop := ∃ k, h.highRunStart = some k ∧ v.releaseSettle ≤ (s.clock - k).toNat
            ((v.holdoffLimit = 0 ∨ (¬ passing ∧ settled)) →
              t = { stored with pairs := t.pairs, iar := t.iar
                                vrd := { stored.vrd with verdict := .normal, factor := 1 } } ∧ timeouts t 1)
            ∧ (v.holdoffLimit ≠ 0 → ¬ passing → ¬ settled → TimeoutsHold s →
              t = { stored with pairs := t.pairs, iar := t.iar
                                vrd := { stored.vrd with factor := v.holdoffFactor } } ∧ timeouts t v.holdoffFactor)
            ∧ (passing → t.vrd.counters.limitPasses = satInc s.vrd.counters.limitPasses
              ∧ (∀ p : PairIx, (s.pair p).hev.promotionPending = true → (t.pair p).health = .failed)
              ∧ ((∀ p : PairIx, (s.pair p).hev.promotionPending = false) → PostedAt boardSource .holdoffLimit s t
                  ∧ (settled → t.vrd.verdict = .normal ∧ timeouts t 1)
                  ∧ (¬ settled → TimeoutsHold s →
                      t.vrd.verdict = .holdoff { h with limitPassed := true } ∧ timeouts t v.holdoffFactor)))))
    ∧ (s.vrd.verdict = .fault → s.vrd.triggers ≠ { pairs := 0, streams := 0, channelLoss := false } →
        Answers l (.clearBoard l) s s .busy)
    ∧ (s.vrd.verdict = .fault → s.vrd.triggers = { pairs := 0, streams := 0, channelLoss := false } → ∃ t : State,
        Answers l (.clearBoard l) s t .ok
        ∧ t = { s with vrd := { s.vrd with
            verdict := .normal
            counters := { s.vrd.counters with boardClears := satInc s.vrd.counters.boardClears } } }
        ∧ bflt t = false ∧ drivingCalm t = false)
    ∧ (s.vrd.verdict ≠ .fault → Answers l (.clearBoard l) s s .ok)

/-- SET_PROBE (R117, R118), PROBE_LINE (R123) and READ_PROBE's collection of the single probe (R124). The commands are stated where
they bring the PRB no line to take, and PROBE_LINE beside that where an IDLE PRB takes the probe's line at once (R119). That a switch
to OFF retires the PROBING entry by R118 also where its line's wait has reached the new limit, so that nothing starves by R120, is the
model's choice (notes/assumptions/34). -/
def Obligations.ProbesAreCommanded : Prop :=
  ∀ (l : Manager) (mode : Byte) (wait : BitVec 32) (address : BitVec 40) (s : State),
    let c := Instr.setProbe l mode wait
    let limit := min (max wait.toNat 1) 65535
    let status : Status := if limit = wait.toNat then .ok else .clamped
    let line : LineAddr := BitVec.ofNat 36 (64 * (address.toNat / 64))
    (1 < mode.toNat → Answers l c s s .range)
    ∧ (mode.toNat = 1 ∨ (mode.toNat = 0 ∧ s.echo.fetchCheck = false) → prbSettled s →
        (∀ h, s.echo.prb = .requesting h → (s.clock - h.takenAt).toNat < limit) →
        Answers l c s { s with echo := { s.echo with fetchCheck := decide (mode.toNat = 1), waitLimit := limit } } status)
    ∧ (∀ h a, mode.toNat ≤ 1 → s.echo.fetchCheck = decide (mode.toNat = 1) → s.echo.prb = .requesting h →
        h.purpose = .singleProbe → s.echo.single = .busy a → currentEntry s = none → s.echo.probeQueue = [] →
        limit ≤ (s.clock - h.takenAt).toNat →
        ∃ t : State, Answers l c s t status ∧ t.echo.prb = .idle ∧ t.echo.single = .done a .starved
          ∧ t.echo.waitLimit = limit)
    ∧ (mode.toNat = 0 → s.echo.fetchCheck = true → ∃ t : State, Answers l c s t status
        ∧ t = { s with echo := t.echo, tap := { s.tap with port := t.tap.port } }
        ∧ t.echo.entries = s.echo.entries.filter (fun e => decide (e.status = .watching)) ∧ t.echo.probeQueue = []
        ∧ t.echo.single = (match s.echo.single with | .busy a => .done a .starved | x => x)
        ∧ t.echo.counters = s.echo.counters ∧ t.echo.fetchCheck = false ∧ t.echo.waitLimit = limit)
    ∧ (2 ^ 36 ≤ address.toNat → Answers l (.probeLine l address) s s .range)
    ∧ (∀ a, address.toNat < 2 ^ 36 → s.echo.single = .busy a → Answers l (.probeLine l address) s s .busy)
    ∧ (address.toNat < 2 ^ 36 → (∀ a, s.echo.single ≠ .busy a) →
        ((s.echo.prb ≠ .idle ∨ s.tap.brstAsserted = true) →
          Answers l (.probeLine l address) s { s with echo := { s.echo with single := .busy line } } .ok)
        ∧ (s.echo.prb = .idle → s.tap.brstAsserted = false → s.tap.port.phase = .idle → s.tap.port.pgnt = false →
            ∃ t : State, Answers l (.probeLine l address) s t .ok
              ∧ t = { s with
                  echo := { s.echo with
                    single := .busy line
                    prb := .requesting { purpose := .singleProbe, address := line, index := 0, takenAt := s.clock
                                         discard := false } }
                  tap := { s.tap with port := { s.tap.port with phase := .requesting, line := some line } } }
              ∧ preq t = true))

/-- SET_TIME loads the stamp clock or refuses a tick-of-second above 9999 (R73), and READ_TIME reports both clocks (R74). -/
def Obligations.TimeIsSetAndRead : Prop :=
  ∀ (l : Manager) (seconds : BitVec 32) (tick : BitVec 16) (s : State),
    (9999 < tick.toNat → Answers l (.setTime l seconds tick) s s .range)
    ∧ (tick.toNat ≤ 9999 → Answers l (.setTime l seconds tick) s
        { s with stamp := { seconds := seconds, tick := tick.toNat } } .ok)
    ∧ ∃ data, Reports l (.readTime l) s data ∧ data.length = 10 ∧ FieldAt data 0 (leBytes 4 s.clock.toNat)
      ∧ FieldAt data 4 (leBytes 4 s.stamp.seconds.toNat) ∧ FieldAt data 8 (leBytes 2 s.stamp.tick)

/-- The reads report what Table 11.8 gives, each field at its offset and in its code (Table 11.3), and change nothing but their link
(R166, R172, R175); READ_PROBE beside that collects a single probe in DONE (R124). A number that names no stream, pair or source is
refused with RANGE. The counters stand in the order of their own tables. Of a HELD window the time since its start is left out
(notes/assumptions/4), and that a HELD pulse interval timer reports no reference is the model's reading (notes/assumptions/25).
`standing`, `claimable` and `winner` are what `Obligations.ClaimsAndAcknowledgements` says of them. -/
def Obligations.ReadsReportTheState : Prop :=
  ∀ (l : Manager) (b : Byte) (s : State),
    let health (h : Health) : Byte := match h with
      | .disabled => 0 | .healthy => 1 | .watch => 2 | .suspect => 3 | .failed => 4 | .quiesced => 5 | .draining => 6
    let verdict : Byte := match s.vrd.verdict with | .normal => 0 | .holdoff _ => 1 | .fault => 2
    let number (n : Option StreamIx) : Byte := match n with | none => 0 | some i => BitVec.ofNat 8 (i.1 + 1)
    let since (c : Clock) : Nat := (s.clock - c).toNat
    let queued := s.echo.entries.countP fun e => decide (e.status = .queued)
    ((b.toNat = 0 ∨ 16 < b.toNat) → Answers l (.readStream l b) s s .range)
    ∧ ((b.toNat = 0 ∨ 8 < b.toNat) →
        Answers l (.readPair l b) s s .range ∧ Answers l (.readEstimate l b) s s .range)
    ∧ ((b.toNat = 0 ∨ 27 < b.toNat) → Answers l (.readSource l b) s s .range)
    ∧ (∀ n : StreamIx, b.toNat = n.1 + 1 → let x := s.stream n; let d := x.desc; let c := x.counters
        ∃ data, Reports l (.readStream l b) s data ∧ data.length = 90
          ∧ FieldAt data 0 [b, match d.role with | .request => 0 | .completion => 1 | .pulse => 2]
          ∧ FieldAt data 2 (leBytes 5 d.base)
          ∧ FieldAt data 7 [match d.slotSize with | .bytes64 => 0 | .bytes128 => 1 | .bytes256 => 2 | .bytes512 => 3]
          ∧ FieldAt data 8 (leBytes 2 d.slotCount ++ leBytes 2 d.marker.toNat)
          ∧ FieldAt data 12 [match d.commitMode with | .header => 0 | .tail => 1
              , match d.lapPolarity with | .normal => 0 | .inverted => 1, BitVec.ofNat 8 d.reorderSpan]
          ∧ FieldAt data 15 (leBytes 4 d.silenceLimit ++ leBytes 4 d.assemblyLimit ++ leBytes 4 d.minInterval
              ++ leBytes 4 d.maxInterval ++ [BitVec.ofNat 8 d.missLimit, flagByte d.fence, flagByte x.enabled])
          ∧ (match x.seq with
              | .unsynchronised => FieldAt data 34 [0, 0, 0, 0, 0, 0]
              | .synchronised next places =>
                FieldAt data 34 (1 :: leBytes 4 next.toNat ++ [BitVec.ofNat 8 places.toNat]))
          ∧ FieldAt data 40 [BitVec.ofNat 8 x.assemblies.length, flagByte x.overrunPending, flagByte x.silent]
          ∧ FieldAt data 43 (leBytes 4 x.lastAccepted.toNat)
          ∧ FieldAt data 47 (leBytes 4 c.accepted.toNat ++ leBytes 4 c.dropped.toNat ++ leBytes 2 c.gaps.toNat
              ++ leBytes 4 c.gapTotal.toNat ++ leBytes 2 c.lost.toNat ++ leBytes 2 c.torn.toNat
              ++ leBytes 2 c.abandoned.toNat ++ leBytes 2 c.unassembled.toNat ++ leBytes 2 c.silences.toNat)
          ∧ FieldAt data 71 (leBytes 4 x.pulse.pulses.toNat ++ leBytes 2 x.pulse.early.toNat
              ++ leBytes 2 x.pulse.missed.toNat ++ [BitVec.ofNat 8 x.pulse.missCount])
          ∧ FieldAt data 80 (optionalField 4 (x.pulse.last.map since))
          ∧ FieldAt data 85 (optionalField 4 (match x.pulse.timer with | .running k => some (since k) | _ => none)))
    ∧ (∀ p : PairIx, b.toNat = p.1 + 1 → let q := s.pair p; let d := q.desc; let c := q.counters; let k := q.hev.counters
        let head (e : Entry) : List Byte := 1 :: leBytes 4 e.tag.toNat ++ leBytes 2 e.slot ++ leBytes 4 (since e.arrival)
          ++ [BitVec.ofNat 8 e.holdCount, BitVec.ofNat 8 e.retryCount] ++ optionalField 4 (e.pickup.map since)
        (∃ data, Reports l (.readPair l b) s data ∧ data.length = 151
          ∧ FieldAt data 0 ([b, number d.requestStream, number d.completionStream] ++ leBytes 2 d.quota
              ++ [BitVec.ofNat 8 d.holdLimit, BitVec.ofNat 8 d.gm, BitVec.ofNat 8 d.gd, BitVec.ofNat 8 d.k])
          ∧ FieldAt data 9 (leBytes 4 d.tfloor ++ leBytes 4 d.tceil ++ [BitVec.ofNat 8 d.armingCount]
              ++ leBytes 4 d.window ++ [BitVec.ofNat 8 d.toleranceShift, BitVec.ofNat 8 d.confirmCount])
          ∧ FieldAt data 24 (leBytes 4 d.quiesceLimit ++ [flagByte d.expectFetch] ++ leBytes 4 d.echoDeadline
              ++ [flagByte d.fence, health q.health] ++ leBytes 4 q.timeout)
          ∧ FieldAt data 39 (leBytes 2 q.openList.length ++ leBytes 2 q.lateList.length)
          ∧ FieldAt data 43 (leBytes 4 c.tracked.toNat ++ leBytes 4 c.completed.toNat ++ leBytes 4 c.late.toNat
              ++ leBytes 4 c.lost.toNat ++ leBytes 4 c.discarded.toNat ++ leBytes 4 c.orphans.toNat
              ++ leBytes 4 c.untracked.toNat)
          ∧ FieldAt data 71 (match q.openList with | [] => List.replicate 18 0 | e :: _ => head e)
          ∧ FieldAt data 89 (match q.lateList with
              | [] => List.replicate 22 0
              | e :: _ => head e.entry ++ leBytes 4 (since e.lateSince))
          ∧ (match q.hev.window with
              | none => FieldAt data 111 (List.replicate 10 0)
              | some w => FieldAt data 111 [if w.held then 2 else 1]
                  ∧ (w.held = false → FieldAt data 112 (leBytes 4 (since w.start)))
                  ∧ FieldAt data 116 (leBytes 2 w.paired.toNat ++ leBytes 2 w.adverse.toNat ++ [flagByte w.taint]))
          ∧ FieldAt data 121 (BitVec.ofNat 8 q.hev.history.length
              :: ((q.hev.history.map fun (bad : Bool) => if bad then 2 else 1) ++ [0, 0, 0]).take 3)
          ∧ FieldAt data 125 [if q.health = .disabled then 0 else match q.hev.lastClass with
              | none => 0 | some .good => 1 | some .bad => 2 | some .idle => 3]
          ∧ FieldAt data 126 [BitVec.ofNat 8 q.hev.confirm, flagByte q.hev.promotionPending]
          ∧ FieldAt data 128 (optionalField 4 (q.hev.quiesceStart.map since))
          ∧ FieldAt data 133 (leBytes 2 k.good.toNat ++ leBytes 2 k.bad.toNat ++ leBytes 2 k.idle.toNat
              ++ leBytes 2 k.suspects.toNat ++ leBytes 2 k.failures.toNat ++ leBytes 2 k.quiesces.toNat
              ++ leBytes 2 k.resumes.toNat ++ leBytes 2 k.overruns.toNat ++ leBytes 2 k.ignored.toNat))
        ∧ ∃ data, Reports l (.readEstimate l b) s data ∧ data.length = 25
          ∧ FieldAt data 0 [b] ∧ FieldAt data 1 (leBytes 4 q.est.m16) ∧ FieldAt data 5 (leBytes 4 q.est.d16)
          ∧ FieldAt data 9 [BitVec.ofNat 8 q.est.n] ∧ FieldAt data 10 (optionalField 4 q.est.lastSample)
          ∧ FieldAt data 15 [if q.est.n < d.armingCount then 1 else 0]
          ∧ FieldAt data 16 (leBytes 4 ((q.est.m16 + d.k * q.est.d16 + 15) / 16))
          ∧ FieldAt data 20 [BitVec.ofNat 8 s.vrd.factor] ∧ FieldAt data 21 (leBytes 4 q.timeout))
    ∧ (∀ i : SourceIx, b.toNat = i.1 + 1 → let x := s.source i
        ∃ data, Reports l (.readSource l b) s data ∧ data.length = 26
          ∧ FieldAt data 0 [b, BitVec.ofNat 8 x.priority, flagByte x.enable
              , match x.target with | .A => 0 | .B => 1, match x.trigger with | .latched => 0 | .level => 1
              , flagByte x.pending]
          ∧ FieldAt data 6 (leBytes 2 x.causes.toNat ++ [x.count]) ∧ FieldAt data 9 (optionalStamp x.firstStamp)
          ∧ FieldAt data 16 (optionalStamp x.lastStamp)
          ∧ FieldAt data 23 [flagByte (standing s i), flagByte (claimable s x.target i)
              , BitVec.ofNat 8 (match x.target with | .A => s.iar.thresholdA | .B => s.iar.thresholdB)])
    ∧ (let v := s.vrd.settings; let c := s.vrd.counters
        ∃ data, Reports l (.readVerdict l) s data ∧ data.length = 59
        ∧ FieldAt data 0 (leBytes 4 v.channelLossLimit ++ [flagByte v.fenceOnLoss, flagByte v.alarmDrive
            , BitVec.ofNat 8 v.holdoffFactor] ++ leBytes 4 v.releaseSettle ++ leBytes 4 v.holdoffLimit)
        ∧ FieldAt data 15 [verdict, BitVec.ofNat 8 s.vrd.factor, flagByte (bflt s), flagByte (drivingCalm s)
            , flagByte s.vrd.sensedHigh, if s.tap.presence = .lost then 1 else 0, s.vrd.triggers.pairs]
        ∧ FieldAt data 22 (leBytes 2 s.vrd.triggers.streams.toNat ++ [flagByte s.vrd.triggers.channelLoss])
        ∧ (match s.vrd.origin with
            | none => FieldAt data 25 (List.replicate 13 0)
            | some g =>
              FieldAt data 25 (1 :: match g.trigger with
                  | .pair p => [1, BitVec.ofNat 8 (p.1 + 1)]
                  | .stream n => [2, BitVec.ofNat 8 (n.1 + 1)]
                  | .channelLoss => [3, 0])
                ∧ FieldAt data 28 (leBytes 4 g.clock.toNat ++ leBytes 4 g.stamp.seconds.toNat ++ leBytes 2 g.stamp.tick))
        ∧ FieldAt data 38 (match s.vrd.verdict with
            | .holdoff h => leBytes 4 (since h.entryTime)
                ++ leBytes 4 (match h.highRunStart with | none => 0 | some k => since k) ++ [flagByte h.limitPassed]
            | _ => List.replicate 9 0)
        ∧ FieldAt data 47 (leBytes 2 c.faults.toNat ++ leBytes 2 c.triggers.toNat ++ leBytes 2 c.holdoffs.toNat
            ++ leBytes 2 c.limitPasses.toNat ++ leBytes 2 c.channelLosses.toNat ++ leBytes 2 c.boardClears.toNat))
    ∧ (let link (k : Link) : List Byte :=
          [match k.selection with | .deselected => 0 | .selected => 1 | .broadcast => 2]
            ++ leBytes 2 k.errorCount.toNat ++ leBytes 4 k.frameCount.toNat
            ++ [match k.lastError with
                | none => 0 | some .character => 1 | some .check => 2 | some .badLen => 3 | some .overrun => 4
                | some .gap => 5]
        let won (m : Manager) : Byte := match winner s m with | none => 0 | some i => BitVec.ofNat 8 (i.1 + 1)
        ∃ data, Reports l (.readSummary l) s data ∧ data.length = 61
        ∧ FieldAt data 0 [BitVec.ofNat 8 s.straps.stn.toNat, flagByte s.straps.baud, BitVec.ofNat 8 s.straps.amap.toNat]
        ∧ FieldAt data 3 (leBytes 4 s.clock.toNat)
        ∧ FieldAt data 7 (leBytes 4 s.tap.writeCount.toNat ++ leBytes 4 s.tap.readCount.toNat
            ++ leBytes 4 s.tap.outsideCount.toNat ++ leBytes 2 s.tap.unobservedCount.toNat
            ++ leBytes 2 s.tap.discontinuities.toNat)
        ∧ FieldAt data 23 [match s.tap.presence with | .running => 0 | .stopped => 1 | .lost => 2
            , flagByte s.tap.brstAsserted]
        ∧ FieldAt data 25 (leBytes 2 (∑ n : StreamIx, if (s.stream n).enabled then 2 ^ n.1 else 0))
        ∧ FieldAt data 27 [BitVec.ofNat 8 s.commitQueue.length]
        ∧ (∀ p : PairIx, FieldAt data (28 + p.1) [health (s.pair p).health])
        ∧ FieldAt data 36 (leBytes 2 (∑ p : PairIx, ((s.pair p).openList.length + (s.pair p).lateList.length)))
        ∧ FieldAt data 38 [BitVec.ofNat 8 s.echo.entries.length, BitVec.ofNat 8 queued, verdict, flagByte (bflt s)
            , flagByte s.vrd.sensedHigh, won .A, won .B]
        ∧ FieldAt data 45 (link s.linkA) ∧ FieldAt data 53 (link s.linkB))
    ∧ (let c := s.echo.counters
        ∃ (t : State) (data : List Byte), exec (.readProbe l) s = .next (answer l (.readProbe l) s (t, ⟨.ok, data⟩))
        ∧ t = { s with echo := { s.echo with single := t.echo.single } }
        ∧ t.echo.single = (match s.echo.single with | .done _ _ => .idle | x => x)
        ∧ data.length = 103 ∧ FieldAt data 0 (flagByte s.echo.fetchCheck :: leBytes 4 s.echo.waitLimit)
        ∧ FieldAt data 5 [BitVec.ofNat 8 s.echo.entries.length, BitVec.ofNat 8 queued]
        ∧ FieldAt data 7 (match s.echo.prb with
            | .idle => [0, 0]
            | .requesting h => [1, match h.purpose with | .currentEntry => 1 | .singleProbe => 2]
            | .reading h => [2, match h.purpose with | .currentEntry => 1 | .singleProbe => 2])
        ∧ FieldAt data 9 (match currentEntry s with
            | none => List.replicate 5 0
            | some e => [1, BitVec.ofNat 8 (e.pair.1 + 1), BitVec.ofNat 8 (e.stream.1 + 1)] ++ leBytes 2 e.slot)
        ∧ (match s.echo.single with
            | .idle => FieldAt data 14 (List.replicate 71 0)
            | .busy a => FieldAt data 14 (1 :: leBytes 5 a.toNat ++ List.replicate 65 0)
            | .done a (.ok d) => FieldAt data 14 (2 :: leBytes 5 a.toNat ++ 1 :: d.toList)
            | .done a .starved => FieldAt data 14 (2 :: leBytes 5 a.toNat ++ 2 :: List.replicate 64 0)
            | .done a .overtaken => FieldAt data 14 (2 :: leBytes 5 a.toNat ++ 3 :: List.replicate 64 0))
        ∧ FieldAt data 85 (leBytes 2 c.confirmed.toNat ++ leBytes 2 c.mismatched.toNat ++ leBytes 2 c.overtaken.toNat
            ++ leBytes 2 c.unread.toNat ++ leBytes 2 c.starved.toNat ++ leBytes 2 c.dropped.toNat
            ++ leBytes 2 c.unwatched.toNat ++ leBytes 2 c.withdrawn.toNat ++ leBytes 2 c.flushed.toNat))
end

