-- ==== Sys2Proof/Laws/State.lean ====
section
/-!
SUPPORT. One lemma per field of the state and per update of it, and the places of the tables after an update. Every later
proof reads an updated state through these, and never unfolds an update.
-/

namespace Sys2Proof

variable {α β : Type} {k : Nat}

@[simp] theorem vupd_same (v : Vector α k) (i : Fin k) (f : α → α) : (vupd v i f)[i.1] = f v[i.1] := by
  simp [vupd]

theorem vupd_other (v : Vector α k) {i j : Fin k} (h : j ≠ i) (f : α → α) : (vupd v i f)[j.1] = v[j.1] := by
  have : i.1 ≠ j.1 := fun e => h (Fin.ext e.symm)
  simp [vupd, this]

/-- Any place of a table after one of its places was changed. -/
theorem vupd_place (v : Vector α k) (i j : Fin k) (f : α → α) :
    (vupd v i f)[j.1] = if j = i then f v[j.1] else v[j.1] := by
  split
  · next h => subst h; simp
  · next h => exact vupd_other v h f

@[simp] theorem vmap_place (f : α → β) (v : Vector α k) (i : Fin k) : (vmap f v)[i.1] = f v[i.1] := by
  simp [vmap]

namespace Machine

variable (s : State)


/-! ### After `State.modStream` -/

@[simp] theorem modStream_straps (n : StreamIx) (f : Stream → Stream) : (s.modStream n f).straps = s.straps := rfl
@[simp] theorem modStream_clock (n : StreamIx) (f : Stream → Stream) : (s.modStream n f).clock = s.clock := rfl
@[simp] theorem modStream_stamp (n : StreamIx) (f : Stream → Stream) : (s.modStream n f).stamp = s.stamp := rfl
@[simp] theorem modStream_tap (n : StreamIx) (f : Stream → Stream) : (s.modStream n f).tap = s.tap := rfl
@[simp] theorem modStream_commitQueue (n : StreamIx) (f : Stream → Stream) : (s.modStream n f).commitQueue = s.commitQueue := rfl
@[simp] theorem modStream_pairs (n : StreamIx) (f : Stream → Stream) : (s.modStream n f).pairs = s.pairs := rfl
@[simp] theorem modStream_echo (n : StreamIx) (f : Stream → Stream) : (s.modStream n f).echo = s.echo := rfl
@[simp] theorem modStream_vrd (n : StreamIx) (f : Stream → Stream) : (s.modStream n f).vrd = s.vrd := rfl
@[simp] theorem modStream_iar (n : StreamIx) (f : Stream → Stream) : (s.modStream n f).iar = s.iar := rfl
@[simp] theorem modStream_linkA (n : StreamIx) (f : Stream → Stream) : (s.modStream n f).linkA = s.linkA := rfl
@[simp] theorem modStream_linkB (n : StreamIx) (f : Stream → Stream) : (s.modStream n f).linkB = s.linkB := rfl
@[simp] theorem modStream_pending (n : StreamIx) (f : Stream → Stream) : (s.modStream n f).pending = s.pending := rfl
@[simp] theorem modStream_pair (n : StreamIx) (f : Stream → Stream) (x : PairIx) : (s.modStream n f).pair x = s.pair x := rfl
@[simp] theorem modStream_source (n : StreamIx) (f : Stream → Stream) (x : SourceIx) : (s.modStream n f).source x = s.source x := rfl
@[simp] theorem modStream_link (n : StreamIx) (f : Stream → Stream) (x : Manager) : (s.modStream n f).link x = s.link x := by cases x <;> rfl

/-! ### After `State.modPair` -/

@[simp] theorem modPair_straps (p : PairIx) (f : Pair → Pair) : (s.modPair p f).straps = s.straps := rfl
@[simp] theorem modPair_clock (p : PairIx) (f : Pair → Pair) : (s.modPair p f).clock = s.clock := rfl
@[simp] theorem modPair_stamp (p : PairIx) (f : Pair → Pair) : (s.modPair p f).stamp = s.stamp := rfl
@[simp] theorem modPair_tap (p : PairIx) (f : Pair → Pair) : (s.modPair p f).tap = s.tap := rfl
@[simp] theorem modPair_streams (p : PairIx) (f : Pair → Pair) : (s.modPair p f).streams = s.streams := rfl
@[simp] theorem modPair_commitQueue (p : PairIx) (f : Pair → Pair) : (s.modPair p f).commitQueue = s.commitQueue := rfl
@[simp] theorem modPair_echo (p : PairIx) (f : Pair → Pair) : (s.modPair p f).echo = s.echo := rfl
@[simp] theorem modPair_vrd (p : PairIx) (f : Pair → Pair) : (s.modPair p f).vrd = s.vrd := rfl
@[simp] theorem modPair_iar (p : PairIx) (f : Pair → Pair) : (s.modPair p f).iar = s.iar := rfl
@[simp] theorem modPair_linkA (p : PairIx) (f : Pair → Pair) : (s.modPair p f).linkA = s.linkA := rfl
@[simp] theorem modPair_linkB (p : PairIx) (f : Pair → Pair) : (s.modPair p f).linkB = s.linkB := rfl
@[simp] theorem modPair_pending (p : PairIx) (f : Pair → Pair) : (s.modPair p f).pending = s.pending := rfl
@[simp] theorem modPair_stream (p : PairIx) (f : Pair → Pair) (x : StreamIx) : (s.modPair p f).stream x = s.stream x := rfl
@[simp] theorem modPair_source (p : PairIx) (f : Pair → Pair) (x : SourceIx) : (s.modPair p f).source x = s.source x := rfl
@[simp] theorem modPair_link (p : PairIx) (f : Pair → Pair) (x : Manager) : (s.modPair p f).link x = s.link x := by cases x <;> rfl

/-! ### After `State.modSource` -/

@[simp] theorem modSource_straps (i : SourceIx) (f : Source → Source) : (s.modSource i f).straps = s.straps := rfl
@[simp] theorem modSource_clock (i : SourceIx) (f : Source → Source) : (s.modSource i f).clock = s.clock := rfl
@[simp] theorem modSource_stamp (i : SourceIx) (f : Source → Source) : (s.modSource i f).stamp = s.stamp := rfl
@[simp] theorem modSource_tap (i : SourceIx) (f : Source → Source) : (s.modSource i f).tap = s.tap := rfl
@[simp] theorem modSource_streams (i : SourceIx) (f : Source → Source) : (s.modSource i f).streams = s.streams := rfl
@[simp] theorem modSource_commitQueue (i : SourceIx) (f : Source → Source) : (s.modSource i f).commitQueue = s.commitQueue := rfl
@[simp] theorem modSource_pairs (i : SourceIx) (f : Source → Source) : (s.modSource i f).pairs = s.pairs := rfl
@[simp] theorem modSource_echo (i : SourceIx) (f : Source → Source) : (s.modSource i f).echo = s.echo := rfl
@[simp] theorem modSource_vrd (i : SourceIx) (f : Source → Source) : (s.modSource i f).vrd = s.vrd := rfl
@[simp] theorem modSource_linkA (i : SourceIx) (f : Source → Source) : (s.modSource i f).linkA = s.linkA := rfl
@[simp] theorem modSource_linkB (i : SourceIx) (f : Source → Source) : (s.modSource i f).linkB = s.linkB := rfl
@[simp] theorem modSource_pending (i : SourceIx) (f : Source → Source) : (s.modSource i f).pending = s.pending := rfl
@[simp] theorem modSource_stream (i : SourceIx) (f : Source → Source) (x : StreamIx) : (s.modSource i f).stream x = s.stream x := rfl
@[simp] theorem modSource_pair (i : SourceIx) (f : Source → Source) (x : PairIx) : (s.modSource i f).pair x = s.pair x := rfl
@[simp] theorem modSource_link (i : SourceIx) (f : Source → Source) (x : Manager) : (s.modSource i f).link x = s.link x := by cases x <;> rfl

/-! ### After `State.modLink` -/

@[simp] theorem modLink_straps (m : Manager) (f : Link → Link) : (s.modLink m f).straps = s.straps := by cases m <;> rfl
@[simp] theorem modLink_clock (m : Manager) (f : Link → Link) : (s.modLink m f).clock = s.clock := by cases m <;> rfl
@[simp] theorem modLink_stamp (m : Manager) (f : Link → Link) : (s.modLink m f).stamp = s.stamp := by cases m <;> rfl
@[simp] theorem modLink_tap (m : Manager) (f : Link → Link) : (s.modLink m f).tap = s.tap := by cases m <;> rfl
@[simp] theorem modLink_streams (m : Manager) (f : Link → Link) : (s.modLink m f).streams = s.streams := by cases m <;> rfl
@[simp] theorem modLink_commitQueue (m : Manager) (f : Link → Link) : (s.modLink m f).commitQueue = s.commitQueue := by cases m <;> rfl
@[simp] theorem modLink_pairs (m : Manager) (f : Link → Link) : (s.modLink m f).pairs = s.pairs := by cases m <;> rfl
@[simp] theorem modLink_echo (m : Manager) (f : Link → Link) : (s.modLink m f).echo = s.echo := by cases m <;> rfl
@[simp] theorem modLink_vrd (m : Manager) (f : Link → Link) : (s.modLink m f).vrd = s.vrd := by cases m <;> rfl
@[simp] theorem modLink_iar (m : Manager) (f : Link → Link) : (s.modLink m f).iar = s.iar := by cases m <;> rfl
@[simp] theorem modLink_pending (m : Manager) (f : Link → Link) : (s.modLink m f).pending = s.pending := by cases m <;> rfl
@[simp] theorem modLink_stream (m : Manager) (f : Link → Link) (x : StreamIx) : (s.modLink m f).stream x = s.stream x := by cases m <;> rfl
@[simp] theorem modLink_pair (m : Manager) (f : Link → Link) (x : PairIx) : (s.modLink m f).pair x = s.pair x := by cases m <;> rfl
@[simp] theorem modLink_source (m : Manager) (f : Link → Link) (x : SourceIx) : (s.modLink m f).source x = s.source x := by cases m <;> rfl

/-! ### After `State.modTap` -/

@[simp] theorem modTap_straps (f : Tap → Tap) : (s.modTap f).straps = s.straps := rfl
@[simp] theorem modTap_clock (f : Tap → Tap) : (s.modTap f).clock = s.clock := rfl
@[simp] theorem modTap_stamp (f : Tap → Tap) : (s.modTap f).stamp = s.stamp := rfl
@[simp] theorem modTap_streams (f : Tap → Tap) : (s.modTap f).streams = s.streams := rfl
@[simp] theorem modTap_commitQueue (f : Tap → Tap) : (s.modTap f).commitQueue = s.commitQueue := rfl
@[simp] theorem modTap_pairs (f : Tap → Tap) : (s.modTap f).pairs = s.pairs := rfl
@[simp] theorem modTap_echo (f : Tap → Tap) : (s.modTap f).echo = s.echo := rfl
@[simp] theorem modTap_vrd (f : Tap → Tap) : (s.modTap f).vrd = s.vrd := rfl
@[simp] theorem modTap_iar (f : Tap → Tap) : (s.modTap f).iar = s.iar := rfl
@[simp] theorem modTap_linkA (f : Tap → Tap) : (s.modTap f).linkA = s.linkA := rfl
@[simp] theorem modTap_linkB (f : Tap → Tap) : (s.modTap f).linkB = s.linkB := rfl
@[simp] theorem modTap_pending (f : Tap → Tap) : (s.modTap f).pending = s.pending := rfl
@[simp] theorem modTap_stream (f : Tap → Tap) (x : StreamIx) : (s.modTap f).stream x = s.stream x := rfl
@[simp] theorem modTap_pair (f : Tap → Tap) (x : PairIx) : (s.modTap f).pair x = s.pair x := rfl
@[simp] theorem modTap_source (f : Tap → Tap) (x : SourceIx) : (s.modTap f).source x = s.source x := rfl
@[simp] theorem modTap_link (f : Tap → Tap) (x : Manager) : (s.modTap f).link x = s.link x := by cases x <;> rfl

/-! ### After `State.modPort` -/

@[simp] theorem modPort_straps (f : ProbePort → ProbePort) : (s.modPort f).straps = s.straps := rfl
@[simp] theorem modPort_clock (f : ProbePort → ProbePort) : (s.modPort f).clock = s.clock := rfl
@[simp] theorem modPort_stamp (f : ProbePort → ProbePort) : (s.modPort f).stamp = s.stamp := rfl
@[simp] theorem modPort_streams (f : ProbePort → ProbePort) : (s.modPort f).streams = s.streams := rfl
@[simp] theorem modPort_commitQueue (f : ProbePort → ProbePort) : (s.modPort f).commitQueue = s.commitQueue := rfl
@[simp] theorem modPort_pairs (f : ProbePort → ProbePort) : (s.modPort f).pairs = s.pairs := rfl
@[simp] theorem modPort_echo (f : ProbePort → ProbePort) : (s.modPort f).echo = s.echo := rfl
@[simp] theorem modPort_vrd (f : ProbePort → ProbePort) : (s.modPort f).vrd = s.vrd := rfl
@[simp] theorem modPort_iar (f : ProbePort → ProbePort) : (s.modPort f).iar = s.iar := rfl
@[simp] theorem modPort_linkA (f : ProbePort → ProbePort) : (s.modPort f).linkA = s.linkA := rfl
@[simp] theorem modPort_linkB (f : ProbePort → ProbePort) : (s.modPort f).linkB = s.linkB := rfl
@[simp] theorem modPort_pending (f : ProbePort → ProbePort) : (s.modPort f).pending = s.pending := rfl
@[simp] theorem modPort_stream (f : ProbePort → ProbePort) (x : StreamIx) : (s.modPort f).stream x = s.stream x := rfl
@[simp] theorem modPort_pair (f : ProbePort → ProbePort) (x : PairIx) : (s.modPort f).pair x = s.pair x := rfl
@[simp] theorem modPort_source (f : ProbePort → ProbePort) (x : SourceIx) : (s.modPort f).source x = s.source x := rfl
@[simp] theorem modPort_link (f : ProbePort → ProbePort) (x : Manager) : (s.modPort f).link x = s.link x := by cases x <;> rfl

/-! ### After `State.modEcho` -/

@[simp] theorem modEcho_straps (f : Echo → Echo) : (s.modEcho f).straps = s.straps := rfl
@[simp] theorem modEcho_clock (f : Echo → Echo) : (s.modEcho f).clock = s.clock := rfl
@[simp] theorem modEcho_stamp (f : Echo → Echo) : (s.modEcho f).stamp = s.stamp := rfl
@[simp] theorem modEcho_tap (f : Echo → Echo) : (s.modEcho f).tap = s.tap := rfl
@[simp] theorem modEcho_streams (f : Echo → Echo) : (s.modEcho f).streams = s.streams := rfl
@[simp] theorem modEcho_commitQueue (f : Echo → Echo) : (s.modEcho f).commitQueue = s.commitQueue := rfl
@[simp] theorem modEcho_pairs (f : Echo → Echo) : (s.modEcho f).pairs = s.pairs := rfl
@[simp] theorem modEcho_vrd (f : Echo → Echo) : (s.modEcho f).vrd = s.vrd := rfl
@[simp] theorem modEcho_iar (f : Echo → Echo) : (s.modEcho f).iar = s.iar := rfl
@[simp] theorem modEcho_linkA (f : Echo → Echo) : (s.modEcho f).linkA = s.linkA := rfl
@[simp] theorem modEcho_linkB (f : Echo → Echo) : (s.modEcho f).linkB = s.linkB := rfl
@[simp] theorem modEcho_pending (f : Echo → Echo) : (s.modEcho f).pending = s.pending := rfl
@[simp] theorem modEcho_stream (f : Echo → Echo) (x : StreamIx) : (s.modEcho f).stream x = s.stream x := rfl
@[simp] theorem modEcho_pair (f : Echo → Echo) (x : PairIx) : (s.modEcho f).pair x = s.pair x := rfl
@[simp] theorem modEcho_source (f : Echo → Echo) (x : SourceIx) : (s.modEcho f).source x = s.source x := rfl
@[simp] theorem modEcho_link (f : Echo → Echo) (x : Manager) : (s.modEcho f).link x = s.link x := by cases x <;> rfl

/-! ### After `State.modVrd` -/

@[simp] theorem modVrd_straps (f : Vrd → Vrd) : (s.modVrd f).straps = s.straps := rfl
@[simp] theorem modVrd_clock (f : Vrd → Vrd) : (s.modVrd f).clock = s.clock := rfl
@[simp] theorem modVrd_stamp (f : Vrd → Vrd) : (s.modVrd f).stamp = s.stamp := rfl
@[simp] theorem modVrd_tap (f : Vrd → Vrd) : (s.modVrd f).tap = s.tap := rfl
@[simp] theorem modVrd_streams (f : Vrd → Vrd) : (s.modVrd f).streams = s.streams := rfl
@[simp] theorem modVrd_commitQueue (f : Vrd → Vrd) : (s.modVrd f).commitQueue = s.commitQueue := rfl
@[simp] theorem modVrd_pairs (f : Vrd → Vrd) : (s.modVrd f).pairs = s.pairs := rfl
@[simp] theorem modVrd_echo (f : Vrd → Vrd) : (s.modVrd f).echo = s.echo := rfl
@[simp] theorem modVrd_iar (f : Vrd → Vrd) : (s.modVrd f).iar = s.iar := rfl
@[simp] theorem modVrd_linkA (f : Vrd → Vrd) : (s.modVrd f).linkA = s.linkA := rfl
@[simp] theorem modVrd_linkB (f : Vrd → Vrd) : (s.modVrd f).linkB = s.linkB := rfl
@[simp] theorem modVrd_pending (f : Vrd → Vrd) : (s.modVrd f).pending = s.pending := rfl
@[simp] theorem modVrd_stream (f : Vrd → Vrd) (x : StreamIx) : (s.modVrd f).stream x = s.stream x := rfl
@[simp] theorem modVrd_pair (f : Vrd → Vrd) (x : PairIx) : (s.modVrd f).pair x = s.pair x := rfl
@[simp] theorem modVrd_source (f : Vrd → Vrd) (x : SourceIx) : (s.modVrd f).source x = s.source x := rfl
@[simp] theorem modVrd_link (f : Vrd → Vrd) (x : Manager) : (s.modVrd f).link x = s.link x := by cases x <;> rfl

/-! ### The place that an update changes -/

@[simp] theorem modStream_same (n : StreamIx) (f : Stream → Stream) : (s.modStream n f).stream n = f (s.stream n) :=
  vupd_same s.streams n f

theorem modStream_place (n m : StreamIx) (f : Stream → Stream) :
    (s.modStream n f).stream m = if m = n then f (s.stream m) else s.stream m :=
  vupd_place s.streams n m f

theorem modStream_other {n m : StreamIx} (h : m ≠ n) (f : Stream → Stream) : (s.modStream n f).stream m = s.stream m :=
  vupd_other s.streams h f

@[simp] theorem modPair_same (p : PairIx) (f : Pair → Pair) : (s.modPair p f).pair p = f (s.pair p) :=
  vupd_same s.pairs p f

theorem modPair_place (p r : PairIx) (f : Pair → Pair) :
    (s.modPair p f).pair r = if r = p then f (s.pair r) else s.pair r :=
  vupd_place s.pairs p r f

theorem modPair_other {p r : PairIx} (h : r ≠ p) (f : Pair → Pair) : (s.modPair p f).pair r = s.pair r :=
  vupd_other s.pairs h f

@[simp] theorem modSource_same (i : SourceIx) (f : Source → Source) : (s.modSource i f).source i = f (s.source i) :=
  vupd_same s.iar.sources i f

theorem modSource_place (i j : SourceIx) (f : Source → Source) :
    (s.modSource i f).source j = if j = i then f (s.source j) else s.source j :=
  vupd_place s.iar.sources i j f

theorem modSource_other {i j : SourceIx} (h : j ≠ i) (f : Source → Source) : (s.modSource i f).source j = s.source j :=
  vupd_other s.iar.sources h f

@[simp] theorem modSource_thresholdA (i : SourceIx) (f : Source → Source) :
    (s.modSource i f).iar.thresholdA = s.iar.thresholdA := rfl

@[simp] theorem modSource_thresholdB (i : SourceIx) (f : Source → Source) :
    (s.modSource i f).iar.thresholdB = s.iar.thresholdB := rfl

@[simp] theorem modLink_same (m : Manager) (f : Link → Link) : (s.modLink m f).link m = f (s.link m) := by
  cases m <;> rfl

theorem modLink_other {m k : Manager} (h : k ≠ m) (f : Link → Link) : (s.modLink m f).link k = s.link k := by
  cases m <;> cases k <;> first | rfl | exact absurd rfl h

@[simp] theorem modTap_tap (f : Tap → Tap) : (s.modTap f).tap = f s.tap := rfl

@[simp] theorem modPort_tap (f : ProbePort → ProbePort) : (s.modPort f).tap = { s.tap with port := f s.tap.port } := rfl

@[simp] theorem modEcho_echo (f : Echo → Echo) : (s.modEcho f).echo = f s.echo := rfl

@[simp] theorem modVrd_vrd (f : Vrd → Vrd) : (s.modVrd f).vrd = f s.vrd := rfl

/-! ### Folds -/

/-- What one step of a fold keeps, the fold keeps. -/
theorem foldl_keeps {σ γ : Type} {f : σ → γ → σ} {P : σ → Prop} (hf : ∀ s a, P s → P (f s a)) (l : List γ) {s : σ}
    (h : P s) : P (l.foldl f s) := by
  induction l generalizing s with
  | nil => exact h
  | cons a l ih => exact ih (hf s a h)

/-- What each step of a fold leaves as it is, the fold leaves as it is. -/
theorem foldl_same {σ γ δ : Type} {f : σ → γ → σ} (g : σ → δ) (hf : ∀ s a, g (f s a) = g s) (l : List γ) (s : σ) :
    g (l.foldl f s) = g s :=
  foldl_keeps (P := fun t => g t = g s) (fun t a h => (hf t a).trans h) l rfl

end Machine

end Sys2Proof
end

