-- ==== Sys2Proof/Laws/Ops.lean ====
section
/-!
SUPPORT. What the shared operations of Machine/Ops.lean and Machine/Estimator.lean can do, said once for each: the part of
the state that each writes, and what it leaves of a pair.
-/

namespace Sys2Proof.Machine

variable (s : State) (p : PairIx)

/-! ### Counters -/

@[simp] theorem satInc_toNat (c : BitVec 16) : (satInc c).toNat = min (c.toNat + 1) 65535 := by
  unfold satInc; split
  · next h => subst h; rfl
  · next h =>
    have : c.toNat ≠ 65535 := fun e => h (BitVec.eq_of_toNat_eq e)
    have := c.isLt
    have e : (c + 1).toNat = (c.toNat + 1) % 65536 := BitVec.toNat_add c 1
    rw [e]; omega

@[simp] theorem satInc8_toNat (c : BitVec 8) : (satInc8 c).toNat = min (c.toNat + 1) 255 := by
  unfold satInc8; split
  · next h => subst h; rfl
  · next h =>
    have : c.toNat ≠ 255 := fun e => h (BitVec.eq_of_toNat_eq e)
    have := c.isLt
    have e : (c + 1).toNat = (c.toNat + 1) % 256 := BitVec.toNat_add c 1
    rw [e]; omega

theorem clampTo_range {lo hi : Nat} (h : lo ≤ hi) (v : Nat) : lo ≤ clampTo lo hi v ∧ clampTo lo hi v ≤ hi := by
  unfold clampTo; omega

/-! ### Numbered places -/

theorem streamOf_eq {k : Nat} {n : StreamIx} : streamOf k = some n ↔ k = n.1 + 1 := by
  unfold streamOf; have := n.2; split
  · next h => simp only [Option.some.injEq, Fin.ext_iff]; omega
  · next h => simp; omega

theorem pairNumbered_eq {k : Nat} : pairNumbered k = some p ↔ k = p.1 + 1 := by
  unfold pairNumbered; have := p.2; split
  · next h => simp only [Option.some.injEq, Fin.ext_iff]; omega
  · next h => simp; omega

theorem sourceOf_eq {k : Nat} {i : SourceIx} : sourceOf k = some i ↔ k = i.1 + 1 := by
  unfold sourceOf; have := i.2; split
  · next h => simp only [Option.some.injEq, Fin.ext_iff]; omega
  · next h => simp; omega

theorem mem_allStreams (n : StreamIx) : n ∈ allStreams := by revert n; decide

theorem mem_allPairs : p ∈ allPairs := by revert p; decide

theorem mem_allSources (i : SourceIx) : i ∈ allSources := by revert i; decide

/-! ### Posting (R144) -/

/-- A posting does what R144 gives and touches no other source. -/
theorem post_posted (i : SourceIx) (c : Cause) : Posted i c s (post i c s) := by
  refine ⟨⟨?_, ?_, ?_, ?_, ?_, ?_, ?_, ?_, ?_⟩, fun j h => modSource_other s h _, rfl, rfl⟩ <;>
    simp [post, Source.posted, Cause.mask]
  split <;> simp_all

/-- A posting writes the sources alone. -/
theorem post_frame (i : SourceIx) (c : Cause) : post i c s = { s with iar := (post i c s).iar } := rfl

@[simp] theorem post_stream (i : SourceIx) (c : Cause) (n : StreamIx) : (post i c s).stream n = s.stream n := rfl
@[simp] theorem post_pair (i : SourceIx) (c : Cause) : (post i c s).pair p = s.pair p := rfl
@[simp] theorem post_tap (i : SourceIx) (c : Cause) : (post i c s).tap = s.tap := rfl
@[simp] theorem post_clock (i : SourceIx) (c : Cause) : (post i c s).clock = s.clock := rfl
@[simp] theorem post_stamp (i : SourceIx) (c : Cause) : (post i c s).stamp = s.stamp := rfl
@[simp] theorem post_echo (i : SourceIx) (c : Cause) : (post i c s).echo = s.echo := rfl
@[simp] theorem post_vrd (i : SourceIx) (c : Cause) : (post i c s).vrd = s.vrd := rfl
@[simp] theorem post_commitQueue (i : SourceIx) (c : Cause) : (post i c s).commitQueue = s.commitQueue := rfl
@[simp] theorem post_pending (i : SourceIx) (c : Cause) : (post i c s).pending = s.pending := rfl
@[simp] theorem post_link (i : SourceIx) (c : Cause) (m : Manager) : (post i c s).link m = s.link m := by
  cases m <;> rfl

/-! ### What an operation on one pair leaves -/

/-- Only the pairs and the incident sources have changed. -/
def PairsAndSources (s t : State) : Prop :=
  t = { s with pairs := t.pairs, iar := { s.iar with sources := t.iar.sources } }

theorem PairsAndSources.refl : PairsAndSources s s := by cases s; rfl

theorem PairsAndSources.trans {s t u : State} (h : PairsAndSources s t) (k : PairsAndSources t u) :
    PairsAndSources s u := by
  unfold PairsAndSources at *; rw [k, h]

theorem PairsAndSources.modPair (f : Pair → Pair) : PairsAndSources s (s.modPair p f) := rfl

theorem PairsAndSources.post (i : SourceIx) (c : Cause) : PairsAndSources s (post i c s) := rfl

/-- The window of a pair aside, the pair is as it was. -/
def SameButWindow (q r : Pair) : Prop :=
  r = { q with hev := { q.hev with window := r.hev.window } } ∧ r.hev.window.isSome = q.hev.window.isSome
    ∧ ∀ w v, q.hev.window = some w → r.hev.window = some v → v.held = w.held ∧ v.start = w.start

theorem SameButWindow.refl (q : Pair) : SameButWindow q q :=
  ⟨by cases q; rfl, rfl, fun w v h k => by rw [h] at k; cases k; exact ⟨rfl, rfl⟩⟩

theorem SameButWindow.trans {q r u : Pair} (h : SameButWindow q r) (k : SameButWindow r u) : SameButWindow q u := by
  obtain ⟨h1, h2, h3⟩ := h; obtain ⟨k1, k2, k3⟩ := k
  refine ⟨by rw [k1, h1], k2.trans h2, fun w v hw hv => ?_⟩
  have : r.hev.window.isSome = true := by rw [h2, hw]; rfl
  obtain ⟨x, hx⟩ := Option.isSome_iff_exists.mp this
  obtain ⟨a, b⟩ := h3 w x hw hx
  obtain ⟨c, d⟩ := k3 x v hx hv
  exact ⟨c.trans a, d.trans b⟩

/-- A change of the window's counts and taint alone. -/
theorem SameButWindow.modWindow {f : EvalWindow → EvalWindow} (hf : ∀ w, (f w).held = w.held ∧ (f w).start = w.start)
    (q : Pair) : SameButWindow q (q.modWindow f) := by
  refine ⟨rfl, by simp [Pair.modWindow], fun w v h k => ?_⟩
  simp only [Pair.modWindow, h, Option.map_some, Option.some.injEq] at k
  subst k; exact hf w

theorem countPaired_kept (w : EvalWindow) : w.countPaired.held = w.held ∧ w.countPaired.start = w.start := by
  unfold EvalWindow.countPaired; split <;> exact ⟨rfl, rfl⟩

theorem countAdverse_kept (w : EvalWindow) : w.countAdverse.held = w.held ∧ w.countAdverse.start = w.start := by
  unfold EvalWindow.countAdverse; split <;> exact ⟨rfl, rfl⟩

theorem countExpiry_kept (w : EvalWindow) : w.countExpiry.held = w.held ∧ w.countExpiry.start = w.start := by
  unfold EvalWindow.countExpiry; split
  · exact ⟨rfl, rfl⟩
  · exact countAdverse_kept w

theorem tainted_kept (w : EvalWindow) : w.tainted.held = w.held ∧ w.tainted.start = w.start := by
  unfold EvalWindow.tainted; split <;> exact ⟨rfl, rfl⟩

/-- An event counted in a pair's window: the pair changes in its window alone, nothing else changes (R89, R90). -/
structure WindowOnly (p : PairIx) (s t : State) : Prop where
  frame : t = { s with pairs := t.pairs }
  others : OtherPairs p s t
  here : SameButWindow (s.pair p) (t.pair p)

theorem windowOnly_modPair {f : EvalWindow → EvalWindow}
    (hf : ∀ w, (f w).held = w.held ∧ (f w).start = w.start) : WindowOnly p s (s.modPair p (Pair.modWindow f)) where
  frame := rfl
  others := fun _ h => modPair_other s h _
  here := by rw [modPair_same]; exact SameButWindow.modWindow hf _

theorem windowOnly_refl : WindowOnly p s s where
  frame := by cases s; rfl
  others := fun _ _ => rfl
  here := SameButWindow.refl _

theorem pairedEvent_windowOnly : WindowOnly p s (pairedEvent p s) := by
  unfold pairedEvent; split
  · exact windowOnly_modPair s p countPaired_kept
  · exact windowOnly_refl s p

theorem adverseEvent_windowOnly : WindowOnly p s (adverseEvent p s) := by
  unfold adverseEvent; split
  · exact windowOnly_modPair s p countAdverse_kept
  · exact windowOnly_refl s p

theorem expiryEvent_windowOnly : WindowOnly p s (expiryEvent p s) := by
  unfold expiryEvent; split
  · exact windowOnly_modPair s p countExpiry_kept
  · exact windowOnly_refl s p

/-- The findings of an expiry or a loss: the pairs and the sources alone, and of the pairs one window. -/
structure FindingOnly (p : PairIx) (s t : State) : Prop where
  frame : PairsAndSources s t
  others : OtherPairs p s t
  here : SameButWindow (s.pair p) (t.pair p)

theorem FindingOnly.refl : FindingOnly p s s where
  frame := PairsAndSources.refl s
  others := fun _ _ => rfl
  here := SameButWindow.refl _

variable {s p} in
theorem FindingOnly.trans {t u : State} (h : FindingOnly p s t) (k : FindingOnly p t u) : FindingOnly p s u where
  frame := h.frame.trans k.frame
  others := fun r e => (k.others r e).trans (h.others r e)
  here := h.here.trans k.here

variable {s p} in
theorem WindowOnly.finding {t : State} (h : WindowOnly p s t) : FindingOnly p s t where
  frame := by have := h.frame; unfold PairsAndSources; rw [this]
  others := h.others
  here := h.here

theorem FindingOnly.post (i : SourceIx) (c : Cause) : FindingOnly p s (post i c s) where
  frame := PairsAndSources.post s i c
  others := fun _ _ => rfl
  here := SameButWindow.refl _

theorem expiryFinding_only (e : Entry) : FindingOnly p s (expiryFinding p s e) := by
  unfold expiryFinding
  split
  · exact (expiryEvent_windowOnly s p).finding
  · exact (FindingOnly.post s p _ _).trans (expiryEvent_windowOnly _ p).finding

theorem lossFinding_only (e : LateEntry) : FindingOnly p s (lossFinding p s e) :=
  (FindingOnly.post s p _ _).trans (expiryEvent_windowOnly _ p).finding

theorem foldl_finding {γ : Type} {f : State → γ → State} (hf : ∀ s a, FindingOnly p s (f s a)) (l : List γ) :
    FindingOnly p s (l.foldl f s) :=
  foldl_keeps (P := FindingOnly p s) (fun t a h => h.trans (hf t a)) l (FindingOnly.refl s p)

/-! ### The examination of the heads (R62, R63) -/

/-- The pair after its open head was examined: each entry from the head that has reached T is on the late list now, with the
same order, and the rest of the pair is kept but for its window's counts (R62). -/
theorem examineOpen_spec (h : (s.pair p).health.active = true) :
    ∃ due, (s.pair p).openList = due ++ ((examineOpen p s).pair p).openList
      ∧ (∀ e ∈ due, (s.pair p).timeout ≤ e.age s.clock)
      ∧ (∀ e, ((examineOpen p s).pair p).openList.head? = some e → e.age s.clock < (s.pair p).timeout)
      ∧ ((examineOpen p s).pair p).lateList = (s.pair p).lateList ++ due.map fun e => ⟨e, s.clock⟩ := by
  set g : Entry → Bool := fun e => decide ((s.pair p).timeout ≤ e.age s.clock) with hg
  have ho : ((examineOpen p s).pair p).openList = (s.pair p).openList.dropWhile g
      ∧ ((examineOpen p s).pair p).lateList
        = (s.pair p).lateList ++ ((s.pair p).openList.takeWhile g).map fun e => ⟨e, s.clock⟩ := by
    unfold examineOpen
    simp only [h, if_true]
    have := (foldl_finding
      (s.modPair p fun q =>
        { q with openList := (s.pair p).openList.dropWhile g,
                 lateList := q.lateList ++ ((s.pair p).openList.takeWhile g).map fun e => ⟨e, s.clock⟩ })
      p (expiryFinding_only · p ·) ((s.pair p).openList.takeWhile g)).here.1
    constructor
    · rw [congrArg Pair.openList this]; simp
    · rw [congrArg Pair.lateList this]; simp
  refine ⟨(s.pair p).openList.takeWhile g, ?_, ?_, ?_, ho.2⟩
  · rw [ho.1]; exact (List.takeWhile_append_dropWhile ..).symm
  · intro e he
    have : ∀ l : List Entry, ∀ e ∈ l.takeWhile g, g e = true := by
      intro l; induction l with
      | nil => simp
      | cons a l ih =>
        intro e he; simp only [List.takeWhile_cons] at he
        split at he
        · rcases List.mem_cons.mp he with rfl | he
          · assumption
          · exact ih e he
        · cases he
    simpa [hg] using this _ e he
  · intro e he
    rw [ho.1] at he
    have : ∀ l : List Entry, (l.dropWhile g).head? = some e → g e = false := by
      intro l; induction l with
      | nil => simp
      | cons a l ih =>
        intro h; simp only [List.dropWhile_cons] at h
        split at h
        · exact ih h
        · next hn => simp only [List.head?_cons, Option.some.injEq] at h; subst h; simpa using hn
    have := this _ he
    simp only [hg, decide_eq_false_iff_not, Nat.not_le] at this
    exact this

/-- What the examination of the heads of one pair leaves: the state but for that pair and the sources, and of the pair its
descriptor, health or DISABLED in place of DRAINING, estimator, T and all of the HEV but the window's counts. -/
structure Examined (p : PairIx) (s t : State) : Prop where
  frame : PairsAndSources s t
  others : OtherPairs p s t
  desc : (t.pair p).desc = (s.pair p).desc
  est : (t.pair p).est = (s.pair p).est
  timeout : (t.pair p).timeout = (s.pair p).timeout
  health : (t.pair p).health = (s.pair p).health ∨ (s.pair p).health = .draining ∧ (t.pair p).health = .disabled
  history : (t.pair p).hev.history = (s.pair p).hev.history
  confirm : (t.pair p).hev.confirm = (s.pair p).hev.confirm
  promotion : (t.pair p).hev.promotionPending = (s.pair p).hev.promotionPending
  quiesce : (t.pair p).hev.quiesceStart = (s.pair p).hev.quiesceStart
  windowIs : (t.pair p).hev.window.isSome = (s.pair p).hev.window.isSome

theorem Examined.refl : Examined p s s :=
  ⟨PairsAndSources.refl s, fun _ _ => rfl, rfl, rfl, rfl, .inl rfl, rfl, rfl, rfl, rfl, rfl⟩

variable {s p} in
theorem Examined.trans {t u : State} (h : Examined p s t) (k : Examined p t u) : Examined p s u where
  frame := h.frame.trans k.frame
  others := fun r e => (k.others r e).trans (h.others r e)
  desc := k.desc.trans h.desc
  est := k.est.trans h.est
  timeout := k.timeout.trans h.timeout
  health := by
    rcases k.health with a | ⟨a, b⟩ <;> rcases h.health with c | ⟨c, d⟩
    · exact .inl (a.trans c)
    · exact .inr ⟨c, a.trans d⟩
    · exact .inr ⟨c ▸ a, b⟩
    · exact .inr ⟨c, b⟩
  history := k.history.trans h.history
  confirm := k.confirm.trans h.confirm
  promotion := k.promotion.trans h.promotion
  quiesce := k.quiesce.trans h.quiesce
  windowIs := k.windowIs.trans h.windowIs

variable {s p} in
theorem FindingOnly.examined {t : State} (h : FindingOnly p s t) : Examined p s t := by
  have e := h.here.1
  refine ⟨h.frame, h.others, ?_, ?_, ?_, .inl ?_, ?_, ?_, ?_, ?_, h.here.2.1⟩
  · rw [congrArg Pair.desc e]
  · rw [congrArg Pair.est e]
  · rw [congrArg Pair.timeout e]
  · rw [congrArg Pair.health e]
  · rw [congrArg (fun q => q.hev.history) e]
  · rw [congrArg (fun q => q.hev.confirm) e]
  · rw [congrArg (fun q => q.hev.promotionPending) e]
  · rw [congrArg (fun q => q.hev.quiesceStart) e]

theorem Examined.lists (f : Pair → Pair) (h : ∀ q, (f q).desc = q.desc ∧ (f q).est = q.est ∧ (f q).timeout = q.timeout
    ∧ (f q).health = q.health ∧ (f q).hev = q.hev) : Examined p s (s.modPair p f) := by
  obtain ⟨a, b, c, d, e⟩ := h (s.pair p)
  exact ⟨PairsAndSources.modPair s p f, fun _ h => modPair_other s h _, by simp [a], by simp [b], by simp [c],
    .inl (by simp [d]), by simp [e], by simp [e], by simp [e], by simp [e], by simp [e]⟩

theorem examineOpen_examined : Examined p s (examineOpen p s) := by
  unfold examineOpen
  dsimp only
  split
  · refine Examined.trans (Examined.lists s p _ ?_) (foldl_finding _ p (expiryFinding_only · p ·) _).examined
    exact fun q => ⟨rfl, rfl, rfl, rfl, rfl⟩
  · exact Examined.refl s p

theorem settleDraining_examined : Examined p s (settleDraining p s) := by
  unfold settleDraining
  split
  · next h =>
    exact ⟨PairsAndSources.modPair s p _, fun _ h => modPair_other s h _, by simp, by simp, by simp,
      .inr ⟨h.1, by simp⟩, by simp, by simp, by simp, by simp, by simp⟩
  · exact Examined.refl s p

theorem examineLate_examined : Examined p s (examineLate p s) := by
  unfold examineLate
  dsimp only
  split
  · refine Examined.trans (Examined.trans (Examined.lists s p _ ?_)
      (foldl_finding _ p (lossFinding_only · p ·) _).examined) (settleDraining_examined _ p)
    exact fun q => ⟨rfl, rfl, rfl, rfl, rfl⟩
  · exact Examined.refl s p

theorem examineBoth_examined : Examined p s (examineBoth p s) :=
  (examineOpen_examined s p).trans (examineLate_examined _ p)

/-! ### The timeout (R80, R81) -/

/-- The recomputation of T: the state but for that pair and the sources, and T is what the pair's estimator, its descriptor
and F give (R80). -/
theorem recomputeT_spec :
    PairsAndSources s (recomputeT p s) ∧ OtherPairs p s (recomputeT p s)
      ∧ ((recomputeT p s).pair p).desc = (s.pair p).desc ∧ ((recomputeT p s).pair p).est = (s.pair p).est
      ∧ ((recomputeT p s).pair p).timeout = timeoutOf (s.pair p).desc (s.pair p).est s.vrd.factor := by
  unfold recomputeT
  dsimp only
  split
  · next h => exact ⟨PairsAndSources.refl s, fun _ _ => rfl, rfl, rfl, h.symm⟩
  · have := examineBoth_examined
      (s.modPair p fun q => { q with timeout := timeoutOf (s.pair p).desc (s.pair p).est s.vrd.factor }) p
    exact ⟨(PairsAndSources.modPair s p _).trans this.frame,
      fun r h => (this.others r h).trans (modPair_other s h _), by rw [this.desc]; simp, by rw [this.est]; simp,
      by rw [this.timeout]; simp⟩

@[simp] theorem recomputeT_vrd : (recomputeT p s).vrd = s.vrd := by rw [(recomputeT_spec s p).1]

/-- A new hold-off factor: the pairs, the sources and F alone change (R81). -/
theorem setFactor_frame (f : Nat) :
    PairsAndSources (s.modVrd fun v => { v with factor := f }) (setFactor f s) :=
  foldl_keeps (P := PairsAndSources (s.modVrd fun v => { v with factor := f }))
    (fun t r h => h.trans (recomputeT_spec t r).1) allPairs (PairsAndSources.refl _)

@[simp] theorem setFactor_vrd (f : Nat) : (setFactor f s).vrd = { s.vrd with factor := f } := by
  rw [setFactor_frame]; rfl

@[simp] theorem setFactor_tap (f : Nat) : (setFactor f s).tap = s.tap := by rw [setFactor_frame]; rfl
@[simp] theorem setFactor_streams (f : Nat) : (setFactor f s).streams = s.streams := by rw [setFactor_frame]; rfl
@[simp] theorem setFactor_echo (f : Nat) : (setFactor f s).echo = s.echo := by rw [setFactor_frame]; rfl
@[simp] theorem setFactor_commitQueue (f : Nat) : (setFactor f s).commitQueue = s.commitQueue := by
  rw [setFactor_frame]; rfl
@[simp] theorem setFactor_pending (f : Nat) : (setFactor f s).pending = s.pending := by rw [setFactor_frame]; rfl

end Sys2Proof.Machine
end

