-- ==== Sys2Proof/Laws/Echo.lean ====
section
/-!
SUPPORT. What the shared operations of Machine/Probe.lean can do: they write the echo part, the probe port, the sources and the
windows of pairs, and nothing else of the state; and when the PRB takes nothing.
-/

namespace Sys2Proof.Machine

variable (s : State)

/-- Only the echo part, the probe port, the pairs and the incident sources have changed. -/
def EchoOnly (s t : State) : Prop :=
  t = { s with
    tap := { s.tap with port := t.tap.port }, echo := t.echo, pairs := t.pairs
    iar := { s.iar with sources := t.iar.sources } }

theorem EchoOnly.refl : EchoOnly s s := by cases s; rfl

variable {s} in
theorem EchoOnly.trans {t u : State} (h : EchoOnly s t) (k : EchoOnly t u) : EchoOnly s u := by
  unfold EchoOnly at *; rw [k, h]

variable {s} in
theorem PairsAndSources.echoOnly {t : State} (h : PairsAndSources s t) : EchoOnly s t := by
  unfold PairsAndSources at h; unfold EchoOnly; rw [h]

theorem EchoOnly.modEcho (f : Echo → Echo) : EchoOnly s (s.modEcho f) := rfl

theorem EchoOnly.modPort (f : ProbePort → ProbePort) : EchoOnly s (s.modPort f) := rfl

theorem handOver_only : EchoOnly s (handOver s) := by
  unfold handOver; split
  · split
    · exact .modPort s _
    · exact .refl s
  · exact .refl s

theorem giveUpLine_only : EchoOnly s (giveUpLine s) := by
  unfold giveUpLine; split
  · exact .refl s
  · exact (EchoOnly.modPort s _).trans (.modEcho _ _)
  · exact .modEcho s _

theorem giveUpIf_only (k : Purpose) : EchoOnly s (giveUpIf k s) := by
  unfold giveUpIf; split
  · exact giveUpLine_only s
  · exact .refl s

theorem modEntry_only (e : EchoEntry) (f : EchoEntry → EchoEntry) : EchoOnly s (modEntry e f s) := .modEcho s _

theorem countEcho_only (f : EchoCounters → EchoCounters) : EchoOnly s (countEcho f s) := .modEcho s _

theorem retireEntry_only (e : EchoEntry) : EchoOnly s (retireEntry e s) := by
  unfold retireEntry; dsimp only; split
  · exact (EchoOnly.modEcho s _).trans (giveUpIf_only _ _)
  · exact .modEcho s _

theorem echoFinding_finding (p : PairIx) (c : Cause) : FindingOnly p s (echoFinding p c s) :=
  (FindingOnly.post s p _ _).trans (adverseEvent_windowOnly _ p).finding

theorem echoFinding_only (p : PairIx) (c : Cause) : EchoOnly s (echoFinding p c s) :=
  (echoFinding_finding s p c).frame.echoOnly

theorem compareEntry_only (e : EchoEntry) : EchoOnly s (compareEntry e s) := by
  unfold compareEntry; dsimp only; split
  · split
    · exact (retireEntry_only s e).trans (countEcho_only _ _)
    · exact ((retireEntry_only s e).trans (countEcho_only _ _)).trans (echoFinding_only _ _ _)
  · exact .refl s

theorem entryRead_only (e : EchoEntry) (i : Nat) (d : LineData) : EchoOnly s (entryRead e i d s) := by
  unfold entryRead; split
  · exact (modEntry_only s e _).trans (compareEntry_only _ _)
  · exact .refl s

theorem lineRead_only (k : SlotKey) (i : Nat) (d : LineData) : EchoOnly s (lineRead k i d s) := by
  unfold lineRead; split
  · exact .refl s
  · exact entryRead_only s _ i d

theorem overtake_only (k : SlotKey) : EchoOnly s (overtake k s) := by
  unfold overtake; split
  · exact .refl s
  · exact (retireEntry_only s _).trans (countEcho_only _ _)

theorem dropOldest_only : EchoOnly s (dropOldest s) := by
  unfold dropOldest; split
  · exact .refl s
  · split
    · exact .refl s
    · exact ((retireEntry_only s _).trans (countEcho_only _ _)).trans (PairsAndSources.post _ _ _).echoOnly

theorem appendEcho_only (p : PairIx) (r : Record) : EchoOnly s (appendEcho p r s) := by
  unfold appendEcho; split
  · exact countEcho_only s _
  · exact (dropOldest_only s).trans (.modEcho _ _)

theorem endSingle_only (o : SingleOutcome) : EchoOnly s (endSingle o s) := by
  unfold endSingle; split
  · exact .modEcho s _
  · exact .refl s

theorem takeLine_only (l : LineInHand) : EchoOnly s (takeLine l s) := (EchoOnly.modEcho s _).trans (handOver_only _)

theorem takeQueueHead_only : EchoOnly s (takeQueueHead s) := by
  unfold takeQueueHead; split
  · exact .refl s
  · exact .modEcho s _

theorem takeEntryLine_only : EchoOnly s (takeEntryLine s) := by
  unfold takeEntryLine; split
  · exact .refl s
  · split
    · exact .refl s
    · exact takeLine_only s _

/-- The PRB's taking of a line writes the echo part and the probe port alone. -/
theorem prbTake_only : EchoOnly s (prbTake s) := by
  unfold prbTake; split
  · exact .refl s
  · split
    · exact takeLine_only s _
    · split
      · exact takeEntryLine_only s
      · exact (takeQueueHead_only s).trans (takeEntryLine_only _)

/-- A PRB with nothing to serve, or that may take nothing, stays as it is. -/
theorem prbTake_settled (h : prbSettled s) : prbTake s = s := by
  unfold prbTake
  split
  · rfl
  · next hc =>
    simp only [not_or, ne_eq, Decidable.not_not] at hc
    rcases h with h | h | ⟨h1, h2, h3⟩
    · exact absurd hc.1 h
    · exact absurd h hc.2
    · split
      · next hb => simp [hb, SingleProbe.isBusy] at h1
      · simp [h2, takeQueueHead, h3, takeEntryLine]

theorem starveLine_only (l : LineInHand) : EchoOnly s (starveLine l s) := by
  unfold starveLine; split
  · exact endSingle_only s _
  · split
    · exact .refl s
    · exact ((retireEntry_only s _).trans (countEcho_only _ _)).trans (echoFinding_only _ _ _)

theorem starveInHand_only : EchoOnly s (starveInHand s) := by
  unfold starveInHand; split
  · exact (giveUpLine_only s).trans (starveLine_only _ _)
  · exact .refl s

theorem abortByClock_only : EchoOnly s (abortByClock s) := by
  unfold abortByClock; dsimp only; split
  · have h := (EchoOnly.modPort s ProbePort.abort).trans (.modEcho _ fun e => { e with prb := .idle })
    split
    · exact h
    · exact h.trans (starveLine_only _ _)
    · split
      · exact h
      · exact h.trans (starveLine_only _ _)
  · exact .refl s

theorem lineOutcome_only (v : Bool) (d : LineData) : EchoOnly s (lineOutcome v d s) := by
  unfold lineOutcome; split
  · dsimp only
    have h := EchoOnly.modEcho s fun e => { e with prb := .idle }
    split
    · exact h
    · split
      · exact h.trans (endSingle_only _ _)
      · split
        · exact h
        · split
          · exact h
          · exact h.trans (entryRead_only _ _ _ _)
  · exact .refl s

theorem judgeOverdue_only (e : EchoEntry) : EchoOnly s (judgeOverdue e s) := by
  unfold judgeOverdue; dsimp only
  refine EchoOnly.trans ?_ (echoFinding_only _ _ _)
  split
  · exact ((countEcho_only s _).trans (modEntry_only _ _ _)).trans (.modEcho _ _)
  · exact (countEcho_only s _).trans (retireEntry_only _ _)

theorem switchProbeOff_only : EchoOnly s (switchProbeOff s) := by
  unfold switchProbeOff; dsimp only
  have h := (giveUpIf_only s .currentEntry).trans (.modEcho _ fun x =>
    { x with entries := x.entries.filter (fun e => decide (e.status = .watching)), probeQueue := [] })
  split
  · exact (h.trans (giveUpIf_only _ _)).trans (endSingle_only _ _)
  · exact h

theorem withdrawStream_only (n : StreamIx) : EchoOnly s (withdrawStream n s) :=
  foldl_keeps (P := EchoOnly s) (fun t e h => (h.trans (retireEntry_only t e)).trans (countEcho_only _ _)) _ (.refl s)

theorem flushEcho_only : EchoOnly s (flushEcho s) := (EchoOnly.modEcho s _).trans (endSingle_only _ _)

/-- Once the echo part is flushed it holds no entry, no queue and no line in hand (R128). -/
theorem flushEcho_empty : (flushEcho s).echo.entries = [] ∧ (flushEcho s).echo.probeQueue = []
    ∧ (flushEcho s).echo.prb = .idle := by
  unfold flushEcho endSingle
  split <;> exact ⟨rfl, rfl, rfl⟩

/-! ### Lists with one place changed -/

theorem modFirst_length {α : Type} (t : α → Bool) (f : α → α) (l : List α) : (modFirst t f l).length = l.length := by
  induction l with
  | nil => rfl
  | cons a l ih => simp only [modFirst]; split <;> simp [ih]

theorem modFirst_none {α : Type} {t : α → Bool} (f : α → α) {l : List α} (h : ∀ a ∈ l, t a = false) :
    modFirst t f l = l := by
  induction l with
  | nil => rfl
  | cons a l ih =>
    simp only [modFirst, h a (List.mem_cons_self ..), Bool.false_eq_true, if_false]
    rw [ih fun b hb => h b (List.mem_cons_of_mem _ hb)]

end Sys2Proof.Machine
end

