-- ==== Sys2Proof/Laws/Verdict.lean ====
section
/-!
SUPPORT. What the shared operations of Machine/Verdict.lean and Machine/Health.lean can do: which part of the state each
writes, and how the standing-trigger set and the verdict move.
-/

namespace Sys2Proof.Machine

variable (s : State) (p : PairIx) (m : Trigger)

/-! ### The standing-trigger set (R131) -/

theorem bit_place {w : Nat} (i : Nat) {j : Nat} (h : j < w) : (BitVec.ofNat w (2 ^ i))[j] = decide (i = j) := by
  rw [← BitVec.getLsbD_eq_getElem, BitVec.getLsbD_ofNat]
  simp only [h, decide_true, Bool.true_and]
  exact Nat.testBit_two_pow

theorem TriggerSet.has_insert (t : TriggerSet) (k : Trigger) : (t.insert m).has k = (t.has k || decide (k = m)) := by
  cases m with
  | pair p => cases k <;> simp [TriggerSet.insert, TriggerSet.has, -BitVec.ofNat_pow, bit_place, Fin.ext_iff, eq_comm]
  | stream n => cases k <;> simp [TriggerSet.insert, TriggerSet.has, -BitVec.ofNat_pow, bit_place, Fin.ext_iff, eq_comm]
  | channelLoss => cases k <;> simp [TriggerSet.insert, TriggerSet.has]

theorem TriggerSet.has_remove (t : TriggerSet) (k : Trigger) : (t.remove m).has k = (t.has k && !decide (k = m)) := by
  cases m with
  | pair p => cases k <;> simp [TriggerSet.remove, TriggerSet.has, -BitVec.ofNat_pow, bit_place, Fin.ext_iff, eq_comm]
  | stream n => cases k <;> simp [TriggerSet.remove, TriggerSet.has, -BitVec.ofNat_pow, bit_place, Fin.ext_iff, eq_comm]
  | channelLoss => cases k <;> simp [TriggerSet.remove, TriggerSet.has]

/-! ### The part of the state that the verdict's operations write -/

/-- Only the pairs, the incident sources and the Verdict Unit have changed. -/
def VerdictOnly (s t : State) : Prop :=
  t = { s with pairs := t.pairs, iar := { s.iar with sources := t.iar.sources }, vrd := t.vrd }

theorem VerdictOnly.refl : VerdictOnly s s := by cases s; rfl

variable {s} in
theorem VerdictOnly.trans {t u : State} (h : VerdictOnly s t) (k : VerdictOnly t u) : VerdictOnly s u := by
  unfold VerdictOnly at *; rw [k, h]

variable {s} in
theorem PairsAndSources.verdictOnly {t : State} (h : PairsAndSources s t) : VerdictOnly s t := by
  unfold PairsAndSources at h; unfold VerdictOnly; rw [h]

theorem VerdictOnly.modVrd (f : Vrd → Vrd) : VerdictOnly s (s.modVrd f) := rfl

theorem joinInFault_only : VerdictOnly s (joinInFault m s) := by
  unfold joinInFault; split
  · exact .refl s
  · exact .modVrd s _

theorem markFailed_only : PairsAndSources s (markFailed p s) :=
  (PairsAndSources.modPair s p _).trans (PairsAndSources.post _ _ _)

theorem failInFault_only : VerdictOnly s (failInFault p s) := by
  unfold failInFault; split
  · exact (markFailed_only s p).verdictOnly.trans (joinInFault_only _ _)
  · exact (markFailed_only s p).verdictOnly

theorem promoteInFault_only : VerdictOnly s (promoteInFault s) :=
  foldl_keeps (P := VerdictOnly s) (fun t r h => by
    split
    · exact h.trans (failInFault_only t r)
    · exact h) allPairs (.refl s)

theorem setFactor_only (f : Nat) : VerdictOnly s (setFactor f s) :=
  (VerdictOnly.modVrd s _).trans (setFactor_frame s f).verdictOnly

theorem enterFault_only : VerdictOnly s (enterFault m s) := by
  unfold enterFault; dsimp only
  split
  · exact (((VerdictOnly.modVrd s _).trans (PairsAndSources.post _ _ _).verdictOnly).trans (setFactor_only _ 1)).trans
      (promoteInFault_only _)
  · exact (VerdictOnly.modVrd s _).trans (PairsAndSources.post _ _ _).verdictOnly

theorem joinTrigger_only : VerdictOnly s (joinTrigger m s) := by
  unfold joinTrigger; split
  · exact .refl s
  · split
    · exact joinInFault_only s m
    · exact enterFault_only s m

theorem leaveTrigger_only : VerdictOnly s (leaveTrigger m s) := .modVrd s _

theorem failPair_only : VerdictOnly s (failPair p s) := by
  unfold failPair; split
  · exact (markFailed_only s p).verdictOnly.trans (joinTrigger_only _ _)
  · exact (markFailed_only s p).verdictOnly

/-- The promotion order holds exactly the pending pairs. -/
theorem mem_promotionOrder : p ∈ promotionOrder s ↔ (s.pair p).hev.promotionPending = true := by
  have h : p ∈ (allPairs.filter fun p => (s.pair p).hev.promotionPending)
      ↔ (s.pair p).hev.promotionPending = true := by simp [mem_allPairs]
  rw [← h]; unfold promotionOrder
  split <;> simp_all

theorem promotePending_only : VerdictOnly s (promotePending s) :=
  foldl_keeps (P := VerdictOnly s) (fun t r h => by
    split
    · exact h.trans (failPair_only t r)
    · exact h) (promotionOrder s) (.refl s)

theorem passLimit_only (h : HoldOff) : VerdictOnly s (passLimit h s) :=
  ((VerdictOnly.modVrd s _).trans (PairsAndSources.post _ _ _).verdictOnly).trans (promotePending_only _)

theorem releaseHoldoff_only : VerdictOnly s (releaseHoldoff s) := (VerdictOnly.modVrd s _).trans (setFactor_only _ 1)

theorem enterHoldoff_only : VerdictOnly s (enterHoldoff s) :=
  ((VerdictOnly.modVrd s _).trans (PairsAndSources.post _ _ _).verdictOnly).trans (setFactor_only _ _)

/-- The monitor's entry to LOST writes the verdict's part and the monitor's state alone (R10, R132). -/
theorem enterLost_only : VerdictOnly (s.modTap fun t => { t with presence := .lost }) (enterLost s) := by
  unfold enterLost; dsimp only
  split
  · exact ((VerdictOnly.modVrd _ _).trans (PairsAndSources.post _ _ _).verdictOnly).trans (joinTrigger_only _ _)
  · exact (VerdictOnly.modVrd _ _).trans (PairsAndSources.post _ _ _).verdictOnly

/-! ### The end of a window (R88 to R95) -/

theorem suspectSample_only : VerdictOnly s (suspectSample p s) := by
  have held : VerdictOnly s (s.modPair p fun q => { q with hev := { q.hev with confirm := q.hev.confirm + 1 } }) :=
    (PairsAndSources.modPair s p _).verdictOnly
  unfold suspectSample; dsimp only
  split
  · split
    · exact .refl s
    · exact failPair_only s p
  · split
    · split
      · exact held.trans ((PairsAndSources.modPair _ p _).trans (.post _ _ _)).verdictOnly
      · exact held.trans (failPair_only _ p)
    · exact held

theorem judgeHealth_only : VerdictOnly s (judgeHealth p s) := by
  unfold judgeHealth; dsimp only
  split
  · exact (PairsAndSources.modPair s p _).verdictOnly
  · exact (PairsAndSources.modPair s p _).verdictOnly
  · split
    · exact suspectSample_only s p
    · exact ((PairsAndSources.modPair s p _).trans (.post _ _ _)).verdictOnly

theorem judgeWindow_only (c : WindowClass) : VerdictOnly s (judgeWindow p c s) := by
  unfold judgeWindow; split
  · exact (PairsAndSources.modPair s p _).verdictOnly.trans (judgeHealth_only _ p)
  · exact .refl s

/-- What the end of a window is (R88): the class recorded, handed to the history and health, and then the next window. -/
theorem endWindow_some {w : EvalWindow} (h : (s.pair p).hev.window = some w) :
    endWindow p s = (judgeWindow p (classify (s.pair p) w) (s.modPair p (Pair.recordClass (classify (s.pair p) w)))).modPair p
      (Pair.modWindow fun _ => freshWindow s) := by
  simp [endWindow, h]

theorem endWindow_only : VerdictOnly s (endWindow p s) := by
  unfold endWindow; split
  · exact .refl s
  · exact ((PairsAndSources.modPair s p _).verdictOnly.trans (judgeWindow_only _ p _)).trans
      (PairsAndSources.modPair _ p _).verdictOnly

/-! ### The verdict -/

@[simp] theorem leaveTrigger_verdict : (leaveTrigger m s).vrd.verdict = s.vrd.verdict := rfl

@[simp] theorem leaveTrigger_pair : (leaveTrigger m s).pair p = s.pair p := rfl

@[simp] theorem joinInFault_verdict : (joinInFault m s).vrd.verdict = s.vrd.verdict := by
  unfold joinInFault; split <;> rfl

@[simp] theorem joinInFault_pair : (joinInFault m s).pair p = s.pair p := by
  unfold joinInFault; split <;> rfl

theorem joinInFault_has : (joinInFault m s).vrd.triggers.has m = true := by
  unfold joinInFault; split
  · assumption
  · show (s.vrd.triggers.insert m).has m = true
    simp [TriggerSet.has_insert]

@[simp] theorem markFailed_vrd : (markFailed p s).vrd = s.vrd := by rw [markFailed_only]

theorem markFailed_health : ((markFailed p s).pair p).health = .failed := by simp [markFailed]

theorem markFailed_other {r : PairIx} (h : r ≠ p) : (markFailed p s).pair r = s.pair r := modPair_other s h _

@[simp] theorem failInFault_verdict : (failInFault p s).vrd.verdict = s.vrd.verdict := by
  unfold failInFault; split <;> simp

@[simp] theorem promoteInFault_verdict : (promoteInFault s).vrd.verdict = s.vrd.verdict := by
  unfold promoteInFault
  refine foldl_keeps (P := fun t : State => t.vrd.verdict = s.vrd.verdict) (fun t r h => ?_) allPairs rfl
  split
  · exact (failInFault_verdict t r).trans h
  · exact h

theorem enterFault_verdict : (enterFault m s).vrd.verdict = .fault := by
  unfold enterFault; dsimp only
  split <;> simp

theorem joinTrigger_verdict (h : s.vrd.triggers.has m = false) : (joinTrigger m s).vrd.verdict = .fault := by
  unfold joinTrigger
  simp only [h, Bool.false_eq_true, if_false]
  split
  · next hv => rw [joinInFault_verdict, hv]
  · exact enterFault_verdict s m

end Sys2Proof.Machine
end

