-- ==== Sys2Proof/Laws/Records.lean ====
section
/-!
SUPPORT. What the shared operations of Machine/Assembler.lean, Machine/Table.lean and Machine/Links.lean can do.
-/

namespace Sys2Proof.Machine

variable (s : State)

/-! ### The Record Assembler -/

/-- Of the state only one stream, the Commit Queue and the incident sources have changed. -/
structure AssemblerOnly (n : StreamIx) (s t : State) : Prop where
  frame : t = { s with
    streams := t.streams, commitQueue := t.commitQueue, iar := { s.iar with sources := t.iar.sources } }
  others : OtherStreams n s t

theorem AssemblerOnly.refl (n : StreamIx) : AssemblerOnly n s s := ⟨by cases s; rfl, fun _ _ => rfl⟩

variable {s} in
theorem AssemblerOnly.trans {n : StreamIx} {t u : State} (h : AssemblerOnly n s t) (k : AssemblerOnly n t u) :
    AssemblerOnly n s u :=
  ⟨by rw [k.frame, h.frame], fun m e => (k.others m e).trans (h.others m e)⟩

theorem AssemblerOnly.modStream (n : StreamIx) (f : Stream → Stream) : AssemblerOnly n s (s.modStream n f) :=
  ⟨rfl, fun _ h => modStream_other s h f⟩

theorem AssemblerOnly.post (n : StreamIx) (i : SourceIx) (c : Cause) : AssemblerOnly n s (post i c s) :=
  ⟨rfl, fun _ _ => rfl⟩

theorem dropRecord_only (n : StreamIx) (c : Cause) : AssemblerOnly n s (dropRecord n c s) :=
  (AssemblerOnly.modStream s n _).trans (.post _ n _ _)

/-- A record offered to the queue: with room it joins at the tail, without it is lost (R36). -/
theorem offerRecord_cases (r : Record) :
    (s.commitQueue.length < 4 ∧ (offerRecord r s).commitQueue
        = s.commitQueue ++ [{ r with overrun := (s.stream r.stream).overrunPending }])
      ∨ (4 ≤ s.commitQueue.length ∧ (offerRecord r s).commitQueue = s.commitQueue) := by
  unfold offerRecord Config.commitQueueSize
  split
  · next h => exact .inl ⟨h, rfl⟩
  · next h => exact .inr ⟨by omega, rfl⟩

theorem offerRecord_only (r : Record) : AssemblerOnly r.stream s (offerRecord r s) := by
  unfold offerRecord; split
  · exact ⟨rfl, fun _ h => modStream_other s h _⟩
  · exact (AssemblerOnly.modStream s _ _).trans (.post _ _ _ _)

theorem acceptRecord_only (r : Record) (q : SeqState) : AssemblerOnly r.stream s (acceptRecord r q s) :=
  (AssemblerOnly.modStream s _ _).trans (offerRecord_only _ _)

theorem countGap_only (n : StreamIx) (g : BitVec 32) : AssemblerOnly n s (countGap n g s) :=
  (AssemblerOnly.modStream s n _).trans (.post _ n _ _)

theorem commitRecord_only (n : StreamIx) (a : Assembly) (h : Header) : AssemblerOnly n s (commitRecord n a h s) := by
  unfold commitRecord; dsimp only
  split
  · exact dropRecord_only s n _
  · split
    · exact dropRecord_only s n _
    · split
      · exact dropRecord_only s n _
      · split
        · exact dropRecord_only s n _
        · split
          · exact dropRecord_only s n _
          · split
            · exact dropRecord_only s n _
            · exact acceptRecord_only s (recordOf n s.clock a h _) _
            · next q g _ =>
              exact (countGap_only s n g).trans (acceptRecord_only _ { recordOf n s.clock a h _ with gap := some g } q)

/-- A write at the ASM touches one stream, the queue and the sources (R22 to R36). -/
theorem asmWrite_only (n : StreamIx) (slot : Nat) (i : Fin 8) (d : LineData) (m : ByteMask) :
    AssemblerOnly n s (asmWrite n slot i d m s) := by
  unfold asmWrite; dsimp only
  split
  · split
    · exact .modStream s n _
    · exact ((AssemblerOnly.modStream s n _).trans (.modStream _ n _)).trans (.post _ n _ _)
    · exact ((AssemblerOnly.modStream s n _).trans (.modStream _ n _)).trans (.post _ n _ _)
    · exact (AssemblerOnly.modStream s n _).trans (commitRecord_only _ n _ _)
  · exact .refl s n

/-- The places of the bitmap move down until place 0 is clear (R32). -/
theorem advancePlaces_clear (next : BitVec 32) (places : BitVec 4) :
    ∃ n q, advancePlaces 4 next places = .synchronised n q ∧ q.getLsbD 0 = false := by
  have h : ∀ (b : BitVec 4) (x : BitVec 32), ∃ n q, advancePlaces 4 x b = .synchronised n q ∧ q.getLsbD 0 = false := by
    intro b x
    simp only [advancePlaces]
    have : ∀ c : BitVec 4, (c >>> 1 >>> 1 >>> 1 >>> 1).getLsbD 0 = false := by decide
    split
    · split
      · split
        · split
          · exact ⟨_, _, rfl, this b⟩
          · next hc => exact ⟨_, _, rfl, by simpa using hc⟩
        · next hc => exact ⟨_, _, rfl, by simpa using hc⟩
      · next hc => exact ⟨_, _, rfl, by simpa using hc⟩
    · next hc => exact ⟨_, _, rfl, by simpa using hc⟩
  exact h places next

/-! ### The assemblies of a stream (R22) -/

theorem findAssembly_slot {slot : Nat} {l : List Assembly} {a : Assembly} (h : findAssembly slot l = some a) :
    a ∈ l ∧ a.slot = slot :=
  ⟨List.mem_of_find?_eq_some h, by simpa using List.find?_some h⟩

theorem freeAssembly_length (slot : Nat) (l : List Assembly) : (freeAssembly slot l).length ≤ l.length :=
  List.length_filter_le ..

theorem putAssembly_length (a : Assembly) (l : List Assembly) :
    (putAssembly a l).length = l.length ∨ findAssembly a.slot l = none ∧ (putAssembly a l).length = l.length + 1 := by
  unfold putAssembly; split
  · exact .inl (by simp)
  · next h => exact .inr ⟨by simpa using h, by simp⟩

@[simp] theorem writeLine_slot (a : Assembly) (i : Fin 8) (d : LineData) (m : ByteMask) :
    (a.writeLine i d m).slot = a.slot := rfl

/-! ### Removal from the lists of a pair (R49) -/

theorem openWith_mem {q : Pair} {tag : BitVec 32} {e : Entry} (h : q.openWith tag = some e) :
    e ∈ q.openList ∧ e.tag = tag :=
  ⟨List.mem_of_find?_eq_some h, by simpa using List.find?_some h⟩

theorem lateWith_mem {q : Pair} {tag : BitVec 32} {e : LateEntry} (h : q.lateWith tag = some e) :
    e ∈ q.lateList ∧ e.entry.tag = tag :=
  ⟨List.mem_of_find?_eq_some h, by simpa using List.find?_some h⟩

/-- The removal of a tag that a list holds takes one entry from it. -/
theorem removeOpen_length {tag : BitVec 32} {l : List Entry} {e : Entry} (h : e ∈ l) (ht : e.tag = tag) :
    (removeOpen tag l).length + 1 = l.length := by
  have := List.length_eraseP_of_mem (p := fun e : Entry => decide (e.tag = tag)) h (by simpa using ht)
  have := List.length_pos_of_mem h
  unfold removeOpen; omega

theorem removeLate_length {tag : BitVec 32} {l : List LateEntry} {e : LateEntry} (h : e ∈ l) (ht : e.entry.tag = tag) :
    (removeLate tag l).length + 1 = l.length := by
  have := List.length_eraseP_of_mem (p := fun e : LateEntry => decide (e.entry.tag = tag)) h (by simpa using ht)
  have := List.length_pos_of_mem h
  unfold removeLate; omega

theorem pickupLast_length (slot : Nat) (now : Clock) (l : List Entry) : (pickupLast slot now l).length = l.length := by
  induction l with
  | nil => rfl
  | cons e l ih => simp only [pickupLast]; split <;> simp [ih]

theorem pickupLast_tags (slot : Nat) (now : Clock) (l : List Entry) :
    (pickupLast slot now l).map Entry.tag = l.map Entry.tag := by
  induction l with
  | nil => rfl
  | cons e l ih => simp only [pickupLast]; split <;> simp [ih]

@[simp] theorem retried_tag (slot : Nat) (e : Entry) : (e.retried slot).tag = e.tag := rfl

@[simp] theorem rearmed_tag (c : Clock) (e : Entry) : (e.rearmed c).tag = e.tag := rfl

/-! ### The links (section 10) -/

/-- A row that is not void leaves the part as its owner did (R163). -/
theorem unlessVoid_taken {m : Manager} {c : Instr} {s : State} (h : (s.link m).voids c = false) (t : State) :
    unlessVoid m c s t = t := by simp [unlessVoid, h]

/-- A void row spends the mark of its drop, and nothing else (R168). -/
theorem unlessVoid_void {m : Manager} {c : Instr} {s : State} (h : (s.link m).voids c = true) (t : State) :
    unlessVoid m c s t = s.modLink m fun l => { l with dropped := none } := by simp [unlessVoid, h]

/-- A command that its link is HANDING is never void: a drop that was marked before is over (R168). -/
theorem voids_handing {l : Link} {c k : Instr} {ov : Bool} (h : l.intake = .handing k ov) : l.voids c = false := by
  simp [Link.voids, h, Intake.isHanding]

/-- What the row of a command ends in, once: a void row spends its mark, any other has the owner's reply delivered to its
link (R163, R168). -/
theorem answer_cases (m : Manager) (c : Instr) (s : State) (out : State × Reply) :
    ((s.link m).voids c = true ∧ answer m c s out = s.modLink m fun l => { l with dropped := none })
      ∨ ((s.link m).voids c = false
        ∧ answer m c s out = out.1.modLink m (Link.deliver m out.1.straps.stn c out.2)) := by
  cases h : (s.link m).voids c
  · exact .inr ⟨rfl, unlessVoid_taken h _⟩
  · exact .inl ⟨rfl, unlessVoid_void h _⟩

/-- The answer of an owner that leaves the queue alone leaves it alone. -/
theorem answer_pending {s : State} (m : Manager) (c : Instr) {out : State × Reply} (h : out.1.pending = s.pending) :
    (answer m c s out).pending = s.pending := by
  obtain ⟨-, e⟩ | ⟨-, e⟩ := answer_cases m c s out <;> rw [e] <;> simp [h]

/-- A reply to a link that is not HANDING its command is recorded there and nothing more (notes/assumptions/5). -/
theorem deliver_unhanded (m : Manager) (stn : BitVec 6) {c : Instr} (r : Reply) {l : Link}
    (h : ∀ ov, l.intake ≠ .handing c ov) : Link.deliver m stn c r l = { l with lastReply := some r } := by
  unfold Link.deliver; split
  · next k ov e => rw [if_neg]; rintro rfl; exact h ov e
  · rfl

/-- A reply to a link that is HANDING its command leaves HANDING (R160, R163). -/
theorem deliver_handed (m : Manager) (stn : BitVec 6) {c : Instr} (r : Reply) {l : Link} {ov : Bool}
    (h : l.intake = .handing c ov) : Link.deliver m stn c r l = l.leaveHanding m stn r ov := by
  simp [Link.deliver, h]

/-- The characters of a reply, in their number, their values and their form (R164, R171). -/
@[simp] theorem chars_length (r : Reply) : r.chars.length = r.data.length + 3 := by simp [Reply.chars, Reply.bytes]

@[simp] theorem chars_data (r : Reply) : r.chars.map LinkChar.data = r.bytes := by
  simp [Reply.chars, Function.comp_def, LinkChar.make]

theorem chars_made {r : Reply} {ch : LinkChar} (h : ch ∈ r.chars) : ∃ b, ch = LinkChar.make b false := by
  obtain ⟨b, -, e⟩ := List.mem_map.mp h; exact ⟨b, e.symm⟩

/-- A character takes twelve bit times (R157). -/
@[simp] theorem bits_length (c : LinkChar) : c.bits.length = 12 := rfl

@[simp] theorem txd_length {l : Link} {cs : List LinkChar} (h : l.tx = .sending cs) : l.txd.length = 12 * cs.length := by
  simp [Link.txd, h, List.length_flatMap, Nat.mul_comm]

@[simp] theorem drain_nil (m : Manager) (stn : BitVec 6) (l : Link) : Link.drain m stn [] l = { l with buffer := [] } := rfl

/-- What the intake leaves in the buffer is no longer than what it was given (R157). -/
theorem drain_buffer_length (m : Manager) (stn : BitVec 6) (b : List RxChar) (l : Link) :
    (Link.drain m stn b l).buffer.length ≤ b.length := by
  induction b generalizing l with
  | nil => simp
  | cons c b ih =>
    simp only [Link.drain]; split
    · simp
    · exact (ih _).trans (by simp)

end Sys2Proof.Machine
end

