-- ==== Sys2Proof/Tests/Slice0.lean ====
section
/-!
SUPPORT. The model's own tests: the well-formedness smoke, the manual's worked examples (each names its table or rule), and for
each statement of Obligations.lean that has hypotheses a state and operands that meet them (`test_meets_…`).
-/

namespace Sys2Proof.Tests

open Sys2Proof.Machine

/-! ### Well-formedness -/

/-- R157: an ADDRESS_CHARACTER row needs an undamaged character with its flag set. -/
theorem test_wf_address : Instr.wellFormed (.addressCharacter .A (LinkChar.make 5 false)) = false := by decide
theorem test_wf_address_damaged :
    Instr.wellFormed (.addressCharacter .A { LinkChar.make 5 true with stop := false }) = false := by decide
/-- R157: a DATA_CHARACTER row carries any other character. -/
theorem test_wf_data : Instr.wellFormed (.dataCharacter .B (LinkChar.make 5 true)) = false := by decide
/-- Table 3.1: no slot lies beyond the largest slot count. -/
theorem test_wf_slot : Instr.wellFormed (.assemblyAbandon 0 4096) = false := by decide
theorem test_wf_slot_last : Instr.wellFormed (.assemblyAbandon 0 4095) = true := by decide

/-! ### Characters and frames (sections 10 and 11) -/

/-- Table 11.2: the address character of station 5 (two ones and the flag, so parity 1). -/
theorem test_character_bits : (LinkChar.make 5 true).bits
    = [false, true, false, true, false, false, false, false, false, true, true, true] := by decide
/-- Section 10: CLEAR_PAIR of pair 3. -/
theorem test_frame_clear_pair : frameChars 0x24 [0x03] = [0x03, 0x24, 0x03, 0xD6] := by decide
theorem test_decode_clear_pair : decodeFrame .A 0x24 [0x03] = .command (.clearPair .A 3) := by decide
/-- Section 11.7: SET_THRESHOLD of target B to 4, and its two replies. -/
theorem test_frame_set_threshold : frameChars 0x32 [0x01, 0x04] = [0x04, 0x32, 0x01, 0x04, 0xC5] := by decide
theorem test_decode_set_threshold : decodeFrame .B 0x32 [0x01, 0x04] = .command (.setThreshold .B 1 4) := by decide
theorem test_replies : (Reply.plain .ok).bytes = [0x02, 0x00, 0xFE] ∧ (Reply.plain .clamped).bytes = [0x02, 0x01, 0xFD] := by
  decide
/-- R164, R171: a reply's LEN of 2 (one 1, so parity 1), and its STATUS of 0, as TXD carries them: address flag clear. -/
theorem test_reply_bits : ({ Link.initial with tx := .sending (Reply.plain .ok).chars } : Link).txd.take 24
    = [false, false, true, false, false, false, false, false, false, false, true, true,
       false, false, false, false, false, false, false, false, false, false, false, true] := by decide
/-- R173: a code that Table 11.5 does not hold, and a known code with an operand too many. -/
theorem test_decode_unknown : decodeFrame .A 0x7E [] = .unknown := by decide
theorem test_decode_length : decodeFrame .A 0x33 [0x00] = .length := by decide
/-- R172: a stamp of 1000 seconds and tick 2000 (section 11.7). -/
theorem test_stamp_bytes :
    optionalStamp (some { seconds := 1000, tick := 2000 }) = [0x01, 0xE8, 0x03, 0x00, 0x00, 0xD0, 0x07] := by decide

/-! ### Channel and records (sections 2 and 3) -/

/-- The worked case of R3. -/
theorem test_line_address : lineAddress 0 { rank := 0, group := 2, bank := 1 } 0x123 5 = 0x002472140 := by decide
/-- R31: 16 slots, NORMAL polarity: sequence 37 is of lap 0 and sequence 53 of lap 1. -/
theorem test_laps : expectedLap StreamDesc.default 37 = false ∧ expectedLap StreamDesc.default 53 = true := by decide
/-- Table 3.5, commits 1 to 4. -/
theorem test_sequence_1 : checkSequence 3 .unsynchronised 100 = .accepted (.synchronised 101 0) := by decide
theorem test_sequence_2 : checkSequence 3 (.synchronised 101 0) 102 = .accepted (.synchronised 101 0b10) := by decide
theorem test_sequence_3 : checkSequence 3 (.synchronised 101 0b10) 101 = .accepted (.synchronised 103 0) := by decide
theorem test_sequence_4 : checkSequence 3 (.synchronised 103 0) 102 = .stale := by decide
/-- Table 3.5, commits 6 and 7. -/
theorem test_sequence_6 : checkSequence 3 (.synchronised 103 0b10) 104 = .stale := by decide
theorem test_sequence_7 : checkSequence 3 (.synchronised 103 0b10) 107 = .gap (.synchronised 108 0) 4 := by decide

/-- A line of 16 words of one byte each. -/
def lineOf (w : Nat → Byte) : LineData := Vector.ofFn fun i => if i.1 % 4 = 0 then w (i.1 / 4) else 0

/-- Table 12.6: line 1 of a slot whose words 16 and 31 hold 7 and 1 contributes 7 × 17 + 1 × 32 = 151. -/
theorem test_contribution : contribution 1 (lineOf fun k => if k = 0 then 7 else if k = 15 then 1 else 0) = 151 := by decide

/-! ### Estimator and windows (sections 5 and 6) -/

/-- Table 5.1, samples 1 and 4. -/
theorem test_estimator_seed :
    Estimator.initial.update PairDesc.default 600 = { m16 := 9600, d16 := 4800, n := 1, lastSample := some 600 } := by decide
theorem test_estimator_sample :
    ({ m16 := 9590, d16 := 3000, n := 3, lastSample := some 560 } : Estimator).update PairDesc.default 620
      = { m16 := 9631, d16 := 2333, n := 4, lastSample := some 620 } := by decide
/-- Table 5.2, sample 3 (an error rounded toward zero). -/
theorem test_estimator_negative :
    ({ m16 := 8020, d16 := 2540, n := 20, lastSample := none } : Estimator).update PairDesc.default 495
      = { m16 := 8008, d16 := 1930, n := 21, lastSample := some 495 } := by decide
/-- Table 5.1: the base after sample 4, and T while arming. -/
theorem test_timeout_base : timeoutOf { PairDesc.default with armingCount := 4 }
    { m16 := 9631, d16 := 2333, n := 4, lastSample := none } 1 = 1186 := by decide
theorem test_timeout_arming : timeoutOf { PairDesc.default with armingCount := 4 }
    { m16 := 9590, d16 := 3000, n := 3, lastSample := none } 1 = 100000 := by decide
/-- Table 5.3, rows 1 and 3, at F = 1 and F = 2. -/
theorem test_timeout_floor : timeoutOf { PairDesc.default with tceil := 2000 }
    { m16 := 320, d16 := 40, n := 16, lastSample := none } 1 = 50 := by decide
theorem test_timeout_ceiling : timeoutOf { PairDesc.default with tceil := 2000 }
    { m16 := 30000, d16 := 5000, n := 16, lastSample := none } 2 = 4000 := by decide

/-- A window that ended with these counts. -/
def counted (paired adverse : BitVec 16) (taint : Bool) : EvalWindow :=
  { held := false, start := 0, paired := paired, adverse := adverse, taint := taint }

/-- Table 6.1, rows 1, 2, 6 and 7. -/
theorem test_window_good : classify Pair.initial (counted 1000 15 false) = .good := by decide
theorem test_window_bad : classify Pair.initial (counted 1000 16 false) = .bad := by decide
theorem test_window_idle : classify Pair.initial (counted 0 0 false) = .idle := by decide
theorem test_window_taint : classify Pair.initial (counted 1000 200 true) = .idle := by decide

/-! ### A small board -/

/-- Stream n in service with four one-line slots at the base, its sequence unsynchronised. -/
def ring (role : Role) (base : Nat) : Stream :=
  { Stream.initial with
    desc := { StreamDesc.default with role := role, base := base, slotCount := 4 }, enabled := true
    pulse := { Stream.initial.pulse with timer := if role = .pulse then .running 0 else .stopped } }

/-- A window that started at 0. -/
def window0 : EvalWindow := counted 0 0 false

/-- A HEALTHY pair of streams 1 and 2. -/
def pair0 : Pair :=
  { Pair.initial with
    desc := { PairDesc.default with requestStream := some 0, completionStream := some 1 }
    health := .healthy, hev := { HealthRecord.initial with window := some window0 } }

/-- Streams 1 (REQUEST), 2 (COMPLETION) and 3 (PULSE) in service, pair 1 HEALTHY with the first two, the clock running. -/
def board : State :=
  rebuildLookup
    { ((State.reset.modStream 0 fun _ => ring .request 0).modStream 1 fun _ => ring .completion 4096).modStream 2
        (fun _ => ring .pulse 8192) with
      pairs := vupd State.reset.pairs 0 fun _ => pair0
      tap := { Tap.initial with presence := .running } }

/-- The board at a later time. -/
def boardAt (t : Clock) : State := { board with clock := t }

/-- An open entry of pair 1 that arrived at 0. -/
def entry (tag : BitVec 32) (slot : Nat) : Entry :=
  { tag := tag, slot := slot, arrival := 0, holdCount := 0, retryCount := 0, pickup := none }

/-- The board with an open list, a late list and a time. -/
def withLists (t : Clock) (l : List Entry) (m : List LateEntry) : State :=
  (boardAt t).modPair 0 fun q => { q with openList := l, lateList := m }

/-- A record of a stream in slot 1, sequence 1. -/
def record (n : StreamIx) (kind : RecordKind) (flags : Byte) : Record :=
  { stream := n, slot := 1, kind := kind, flags := flags, tag := 7, sequence := 1, commitTime := 5, signature := 0, certain := 1
    gap := none, overrun := false }

/-- A state with one record in its Commit Queue. -/
def withRecord (r : Record) (s : State) : State := { s with commitQueue := [r] }

/-- A state with pair 1 in a health state. -/
def withHealth (h : Health) (s : State) : State := s.modPair 0 fun q => { q with health := h }

/-- A state with a link in this intake and selection. -/
def withLink (x : Intake) (sel : Selection) (s : State) : State :=
  { s with linkA := { Link.initial with intake := x, selection := sel } }

/-- What a step leads to, for a state whose step completes. -/
def after (s : State) : State := match step s with | .next t => t | _ => s

/-! ### Steps of the small board (one or two for each family of the table) -/

/-- What a command leads to. -/
def run (c : Instr) (s : State) : State := match exec c s with | .next t => t | _ => s

/-- R2, R3, R4: an activated bank resolves a write, which is then in flight at its line. -/
theorem test_column_write : (run (.columnCommand ⟨0, 2, 1⟩ 40 .write .full false)
    (run (.rowActivate ⟨0, 2, 1⟩ 0x123) board)).tap.writesInFlight = [⟨0x002472140, .full⟩] := by decide
/-- R2, R9: a column command to a CLOSED bank is counted. -/
theorem test_column_closed : (run (.columnCommand ⟨0, 2, 1⟩ 40 .read .full true) board).tap.unobservedCount = 1 := by decide
/-- R2: a precharge of the rank closes the bank; of another rank it does not. -/
theorem test_rank_precharge : (run (.rankPrecharge 1) (run (.rowActivate ⟨1, 3, 3⟩ 9) board)).tap.bank ⟨1, 3, 3⟩ = .closed := by
  decide
theorem test_rank_other : (run (.rankPrecharge 0) (run (.rowActivate ⟨1, 3, 3⟩ 9) board)).tap.bank ⟨1, 3, 3⟩ = .openRow 9 := by
  decide
/-- R53: a request record is inserted. -/
theorem test_request : ((run .corTakeRecord (withRecord (record 0 .work 0) (boardAt 9))).pair 0).openList
    = [{ entry 7 1 with arrival := 5 }] := by decide
/-- R54: a completion frees its entry and its sample seeds the estimator. -/
theorem test_completion : ((run .corTakeRecord (withRecord (record 1 .work 0) (withLists 9 [entry 7 1] []))).pair 0).est
    = { m16 := 80, d16 := 40, n := 1, lastSample := some 5 } := by decide
/-- R55: HOLD re-arms the entry. -/
theorem test_hold : ((run .corTakeRecord (withRecord (record 1 .work 2) (withLists 9 [entry 7 1] []))).pair 0).openList
    = [{ entry 7 1 with arrival := 5, holdCount := 1 }] := by decide
/-- R62: an entry expires when its age reaches T, and not one tick before. -/
theorem test_expiry : ((run (.entryExpiry 0) (withLists 100000 [entry 7 1] [])).pair 0).lateList
    = [{ entry := entry 7 1, lateSince := 100000 }] := by decide
theorem test_expiry_before : ((run (.entryExpiry 0) (withLists 99999 [entry 7 1] [])).pair 0).lateList = [] := by decide
/-- R63: a late entry is lost when it has been late for T. -/
theorem test_loss : ((run (.entryLoss 0) (withLists 100000 [] [{ entry := entry 7 1, lateSince := 0 }])).pair 0).counters.lost
    = 1 := by decide
/-- R61: the pickup goes to the entry nearest the tail. -/
theorem test_pickup : (pickupLast 1 9 [entry 7 1, entry 8 1, entry 9 2]).map Entry.pickup = [none, some 9, none] := by decide
/-- R105, R106: a pulse, and a missed interval. -/
theorem test_pulse : ((run .corTakeRecord (withRecord (record 2 .pulse 0) (boardAt 9))).stream 2).pulse.timer = .running 5 := by
  decide
theorem test_pulse_missed : ((run (.pulseMissed 2) (boardAt 10000)).stream 2).pulse.missCount = 1 := by decide
/-- R88, R91: an IDLE window starts the next. -/
theorem test_window_end : ((run (.windowEnd 0) (boardAt 10000)).pair 0).hev.window
    = some { window0 with start := 10000 } := by decide
/-- A board whose window's end promotes the pair, which ends the hold-off (R133), and the shorter T expires an entry that the next
window does not count (R88). -/
def promoted : State :=
  { (withLists 150000 [entry 7 1] []).modPair 0 (fun q => { q with
      desc := { q.desc with fence := true }, health := .suspect, timeout := 200000
      hev := { q.hev with window := some (counted 63 1 false), history := [true, true], confirm := 2 } }) with
    vrd := { board.vrd with verdict := .holdoff { entryTime := 0, highRunStart := none, limitPassed := true }, factor := 2 } }
set_option maxRecDepth 4000 in
theorem test_window_promotion_expires : ((run (.windowEnd 0) promoted).pair 0).lateList
    = [{ entry := entry 7 1, lateSince := 150000 }] := by decide
set_option maxRecDepth 4000 in
theorem test_window_next_clean : ((run (.windowEnd 0) promoted).pair 0).hev.window = some { window0 with start := 150000 } := by
  decide
/-- R98: a QUIESCE record. -/
theorem test_quiesce : ((run .corTakeRecord (withRecord (record 1 .quiesce 0) (boardAt 9))).pair 0).hev.quiesceStart = some 5 := by
  decide
/-- R12, R13, R69: the board reset discards the entries. -/
theorem test_board_reset : ((run .boardResetAsserted (withLists 9 [entry 7 1] [])).pair 0).counters.discarded = 1 := by decide
/-- R10: a dead tick stops the monitor, and at the limit it is LOST. -/
theorem test_clock_stop : (run .clockStop board).tap.absence = 1 := by decide
theorem test_channel_loss : (run .channelLoss { board with tap := { board.tap with presence := .stopped, absence := 1000 } }).tap.presence
    = .lost := by decide
/-- R135: a low CALM_N enters HOLDOFF with F the hold-off factor, and T doubles. -/
theorem test_holdoff : (run (.calmNJudgement false) board).vrd.factor = 2 := by decide
theorem test_holdoff_timeout : ((run (.calmNJudgement false) board).pair 0).timeout = 200000 := by decide
/-- R72: the tick-of-second passes 9999. -/
theorem test_second : (run (.tickBoundary true) { board with stamp := { seconds := 4, tick := 9999 } }).stamp
    = { seconds := 5, tick := 0 } := by decide
/-- R44: the manual's clamps. -/
theorem test_clamps : let d := ({ (pair0.desc.operands 0) with quota := 0, holdLimit := 9, window := 500, quiesceLimit := 50 }
    : SetPairOps).tuned none none false false
    d.quota = 1 ∧ d.holdLimit = 7 ∧ d.window = 1000 ∧ d.quiesceLimit = 100 := by decide
/-- R18: a second stream at the same window is refused. -/
theorem test_overlap : (takenEnableStream 4 (board.modStream 3 fun x => { x with desc := { x.desc with base := 4096 } })).2.status
    = .overlap := by decide
/-- R152: ACKNOWLEDGE from the other target's link, and STILL of a LEVEL source. -/
theorem test_acknowledge_owner : (takenAcknowledge .B 17 board).2.status = .notOwner := by decide
theorem test_acknowledge_still : (takenAcknowledge .A 17 (withHealth .watch (board.modSource 16 fun x =>
    { x with pending := true, trigger := .level }))).2.status = .still := by decide
/-- R139: CLEAR_BOARD with a trigger standing. -/
theorem test_clear_board_busy : (takenClearBoard (board.modVrd fun v =>
    { v with verdict := .fault, triggers := { v.triggers with pairs := 1 } })).2.status = .busy := by decide
/-- R168: B's RESET_PART drops a command that A's link has handed on, whose row then has no effect; the next frame's has. -/
theorem test_reset_drops :
    let s := run (.resetPart .B) (withLink (.handing (.setTime .A 5 5) false) .selected board)
    (run (.setTime .A 5 5) s).stamp.seconds = 0 ∧ (run (.setTime .A 5 5) (run (.setTime .A 5 5) s)).stamp.seconds = 5 := by decide
/-- R123: PROBE_LINE rounds its address down to the line. -/
theorem test_probe_line : (run (.probeLine .A 0x1234567F) board).echo.single = .busy 0x12345640 := by decide


/-! ### The hypotheses of the statements are met -/

theorem test_meets_step_front : (State.reset.withCommand (.silence 0)).pending = .silence 0 :: [] := by decide
theorem test_meets_step_idle : State.reset.pending = [] := by decide

/-- A board with an open and a late entry, a record waiting, and the COR's command in front. -/
def busy : State :=
  { (withRecord (record 1 .work 0) (withLists 9 [entry 7 1] [{ entry := entry 8 2, lateSince := 3 }])).modPair 0
      (fun q => { q with counters := { q.counters with tracked := 2 } }) with
    pending := [.corTakeRecord] }

theorem test_meets_invariant_step : step busy = .next (after busy) := rfl
theorem test_meets_tables : TablesFit busy := by unfold TablesFit; decide
theorem test_meets_assemblies : AssembliesDistinct busy ∧ PlaceZeroClear busy :=
  ⟨by unfold AssembliesDistinct; decide, by
    intro n
    have h : ∀ n : StreamIx, (busy.stream n).seq = .unsynchronised := by decide
    rw [h n]; trivial⟩
theorem test_meets_lookup : LookupHolds busy := by unfold LookupHolds; decide
theorem test_meets_members : MembersHold busy := by unfold MembersHold; decide
theorem test_meets_entries : EntriesHold busy ∧ TagsDistinct busy := by unfold EntriesHold TagsDistinct; decide
theorem test_meets_balance : CountersBalance busy := by unfold CountersBalance Pair.balanced; decide
theorem test_meets_timeouts : TimeoutsHold busy := by unfold TimeoutsHold; decide
theorem test_meets_health : HealthHolds busy := by
  intro p
  refine ⟨by revert p; decide, fun w h => ?_, by revert p; decide, by revert p; decide, by revert p; decide⟩
  have g : ∀ p : PairIx, ∀ w ∈ (busy.pair p).hev.window, w.held = busy.tap.brstAsserted := by decide
  exact g p w h
theorem test_meets_triggers : TriggersHold busy := by unfold TriggersHold; decide
theorem test_meets_pulse_triggers : PulseTriggersHold busy := by unfold PulseTriggersHold; decide
theorem test_meets_quiet : BoardResetQuiet (run .boardResetAsserted busy)
    ∧ (run .boardResetAsserted busy).tap.brstAsserted = true := by
  unfold BoardResetQuiet; decide
theorem test_meets_sources : SourcesHold busy := by unfold SourcesHold; decide
theorem test_meets_ranges : RangesHold busy := by
  unfold RangesHold StreamDesc.inRange PairDesc.inRange VerdictSettings.inRange
  refine ⟨by decide, fun p => ⟨by revert p; decide, ?_, by revert p; decide, by revert p; decide⟩, by decide⟩
  refine ⟨by revert p; decide, by revert p; decide, by revert p; decide, fun l h => ?_⟩
  have g : ∀ p : PairIx, (busy.pair p).est.lastSample = none := by decide
  rw [g p] at h; cases h
theorem test_meets_links : LinksHold busy := by
  unfold LinksHold Link.holds
  exact ⟨⟨fun _ => .inl rfl, fun f h => by cases h⟩, fun _ => .inl rfl, fun f h => by cases h⟩
/-- A due and a not due judgement. -/
theorem test_meets_not_due : EntriesHold (withLists 99999 [entry 7 1] []) ∧ timed (.entryExpiry 0) = true
    ∧ dueNow (withLists 99999 [entry 7 1] []) (.entryExpiry 0) = false := by unfold EntriesHold; decide

/-! Links. -/

/-- A link with characters held, an overrun marked or not, that has handed CLAIM on. -/
def handing (sel : Selection) (ov : Bool) (held : List RxChar) : State :=
  { board with linkA := { Link.initial with intake := .handing (.claim .A) ov, selection := sel, buffer := held } }

/-- A held data character (the LEN of a frame) and a held address character. -/
def heldLen : RxChar := { value := 2, address := false, damaged := false, time := 0 }
def heldAddress : RxChar := { value := 63, address := true, damaged := false, time := 0 }

/-- The board after RESET_PART on B dropped a CLAIM that A's link had handed on. -/
def claimDropped : State := run (.resetPart .B) (handing .selected false [])

theorem test_meets_clocks : (Instr.setTime .A 5 5).link? = some .A ∧ ¬ Voided .A (.setTime .A 5 5) board := by
  unfold Voided; exact ⟨by decide, fun h => by have := h.1; revert this; decide⟩
theorem test_meets_power_on : Handed .A (.claim .A) false (handing .selected false []) := by unfold Handed; decide
theorem test_meets_reset_part : ¬ Voided .A (.resetPart .A) (withLink (.handing (.resetPart .A) false) .selected board)
    ∧ Handed .A (.resetPart .A) false (withLink (.handing (.resetPart .A) false) .selected board)
    ∧ Handed .A (.resetPart .A) true (withLink (.handing (.resetPart .A) true) .broadcast board)
    ∧ ((withLink (.handing (.resetPart .A) false) .selected board).link .A).selection = .selected := by
  unfold Voided Handed; exact ⟨fun h => by have := h.1; revert this; decide, by decide, by decide, by decide⟩
/-- RESET_PART on B, which A's link would have had carried out on a command of its own. -/
theorem test_meets_reset_part_drops : ¬ Voided .B (.resetPart .B) (handing .selected false [])
    ∧ Handed .A (.claim .A) false (handing .selected false []) := by
  unfold Voided Handed; exact ⟨fun h => by have := h.1; revert this; decide, by decide⟩
theorem test_meets_voided : Voided .A (.claim .A) claimDropped ∧ (Instr.claim .A).link? = some .A := by
  unfold Voided
  exact ⟨⟨by decide, fun k ov h => by
    have g : (claimDropped.link .A).intake = .deselected := by decide
    rw [g] at h; cases h⟩, by decide⟩
/-- The answer on a SELECTED link, with an overrun and a held data character, and with a held address character. -/
theorem test_meets_answer : (Instr.claim .A).link? = some .A ∧ (∀ l, Instr.claim .A ≠ .resetPart l)
    ∧ ¬ Voided .A (.claim .A) (handing .selected true [heldLen]) ∧ Handed .A (.claim .A) true (handing .selected true [heldLen])
    ∧ (∀ ch ∈ ((handing .selected true [heldLen]).link .A).buffer, ch.address = false)
    ∧ ((handing .selected true [heldLen]).link .A).selection = .selected
    ∧ ((handing .selected true [heldLen, heldAddress]).link .A).buffer = [heldLen] ++ [heldAddress]
    ∧ heldAddress.address = true ∧ ((handing .selected true [heldLen, heldAddress]).link .A).tx = .idle := by
  unfold Voided Handed
  exact ⟨by decide, fun l => Instr.noConfusion, fun h => by have := h.1; revert this; decide, by decide⟩
/-- The answer in BROADCAST: after an overrun, with no character held, with a LEN held, and with an address character held. -/
theorem test_meets_answer_broadcast : Handed .A (.claim .A) true (handing .broadcast true [heldLen])
    ∧ Handed .A (.claim .A) false (handing .broadcast false []) ∧ ((handing .broadcast false []).link .A).buffer = []
    ∧ ((handing .broadcast false [heldLen]).link .A).buffer = [heldLen] ∧ 2 ≤ heldLen.value.toNat ∧ heldLen.value.toNat ≤ 60
    ∧ ((handing .broadcast false [heldAddress]).link .A).buffer = [] ++ [heldAddress] := by
  unfold Handed; decide
/-- A row whose command its link has not handed on. -/
theorem test_meets_answer_unhanded : ∀ ov, ¬ Handed .A (.claim .A) ov board := by unfold Handed; decide
theorem test_meets_reply : (Instr.readPair .A 8).link? = some .A ∧ frameOf (.readPair .A 8) = some (0x21, [8])
    ∧ (board.link .A).buffer = [] ∧ ¬ Voided .A (.readPair .A 8) board := by
  unfold Voided; exact ⟨by decide, by decide, by decide, fun h => by have := h.1; revert this; decide⟩
theorem test_meets_transmit : ({ Link.initial with tx := .sending (Reply.plain .ok).chars } : Link).tx
    = .sending ([LinkChar.make 2 false] ++ LinkChar.make 0 false :: [LinkChar.make 0xFE false]) := by decide
theorem test_meets_frame : (Instr.clearPair .A 3).link? = some .A ∧ frameOf (.clearPair .A 3) = some (0x24, [3])
    ∧ ((withLink .waiting .selected board).link .A).intake = .waiting ∧ ((withLink .waiting .selected board).link .A).buffer = []
    ∧ ((withLink .waiting .selected board).link .A).tx = .idle ∧ (withLink .waiting .selected board).pending = []
    ∧ sumBytes [0x03, 0x24, 0x03, 0xD6] = 0 ∧ sumBytes [0x03, 0x24, 0x03, 0xD7] ≠ 0 := by decide
/-- The largest frame: SET_PAIR's 34 operands. -/
theorem test_meets_frame_longest : (frameOf (.setPair .A (pair0.desc.operands 0))).map (fun f => f.2.length) = some 34 := by decide
theorem test_meets_address : (LinkChar.make 63 true).isAddress = true ∧ (LinkChar.make 0 true).isAddress = true
    ∧ (board.link .A).buffer = [] ∧ (board.link .A).intake = .deselected := by decide
/-- A frame in progress and a reply being sent, which an address character abandons. -/
theorem test_meets_address_abandons :
    ((withLink (.receiving { len := 3, count := 0, sum := 3, damaged := true, chars := [] }) .selected board).link .A).buffer = []
      ∧ ((withLink (.replying false) .selected board).link .A).buffer = [] := by decide
theorem test_meets_data : (LinkChar.make 3 false).isAddress = false ∧ ((withLink .waiting .selected board).link .A).tx = .idle
    ∧ ((withLink .waiting .selected board).link .A).buffer = [] := by decide
theorem test_meets_data_transmitting : ({ board with linkA := { Link.initial with tx := .finishing } } : State).linkA.tx ≠ .idle := by
  decide
/-- A frame one character short of its end, of a known code, of an unknown one and with an operand too many: the CHECK ends it. -/
def nearlyEnded (code : Byte) (ops : List Byte) (damaged : Bool) (sel : Selection) : State :=
  let body := code :: ops
  let f : Frame := { len := body.length + 1, count := body.length, sum := BitVec.ofNat 8 (body.length + 1) + sumBytes body
                     damaged := damaged, chars := body }
  withLink (.receiving f) sel board
theorem test_meets_frame_ends : ((nearlyEnded 0x33 [] true .selected).link .A).tx = .idle
    ∧ ((nearlyEnded 0x33 [] false .selected).link .A).buffer = []
    ∧ (LinkChar.make (-(0x35 : Byte)) false).isAddress = false ∧ sumBytes [0x02, 0x33, -(0x35 : Byte)] = 0
    ∧ sumBytes [0x02, 0x33, 0] ≠ 0 ∧ decodeFrame .A 0x33 [] = .command (.claim .A)
    ∧ decodeFrame .A 0x7E [] = .unknown ∧ decodeFrame .A 0x33 [0] = .length
    ∧ ((nearlyEnded 0x7E [] false .selected).link .A).selection = .selected
    ∧ ((nearlyEnded 0x33 [0] false .broadcast).link .A).selection = .broadcast := by decide
/-- A character that finds one held in HANDING, and one that finds two. -/
theorem test_meets_held : ((handing .selected false [heldLen]).link .A).intake = .handing (.claim .A) false
    ∧ ((handing .selected false [heldLen]).link .A).buffer.length < 2
    ∧ ((handing .selected false [heldLen, heldLen]).link .A).buffer.length = 2
    ∧ ((handing .selected false [heldLen, heldLen]).link .A).tx = .idle := by decide
/-- The LENs at the ends of their range, and beside them. -/
theorem test_meets_data_len : [(1 : Byte), 2, 60, 61].map (fun b => decide (2 ≤ b.toNat ∧ b.toNat ≤ 60))
    = [false, true, true, false] := by decide
theorem test_meets_gap : ((withLink .skipping .selected (boardAt 21)).link .A).intake = .skipping
    ∧ 21 ≤ ((boardAt 21).clock - ((withLink .skipping .selected (boardAt 21)).link .A).lastTaken).toNat := by decide

/-! The channel. -/

/-- The board with a write and a read in flight at a line. -/
def inFlight (a : LineAddr) (len : BurstLength) (s : State) : State :=
  { s with tap := { s.tap with writesInFlight := [⟨a, len⟩], readsInFlight := [⟨a, len⟩] } }

theorem test_meets_settled : prbSettled board := by unfold prbSettled; decide
theorem test_meets_burst_dropped : (inFlight 0x40 .full board).tap.writesInFlight[0]? = some ⟨0x40, .full⟩
    ∧ (inFlight 0x40 .full board).tap.readsInFlight[0]? = some ⟨0x40, .full⟩
    ∧ ({ inFlight 0x40 .full board with tap := { board.tap with brstAsserted := true } } : State).tap.brstAsserted = true := by
  decide
/-- The lines just beyond the last slot of stream 1 and just below stream 2 lie in no window. -/
theorem test_meets_burst_outside : LookupHolds (inFlight 0x100 .full board) ∧ OutsideWindows (inFlight 0x100 .full board) 0x100
    ∧ OutsideWindows (inFlight 0xFC0 .full board) 0xFC0 ∧ prbSettled (inFlight 0x100 .full board)
    ∧ (inFlight 0x100 .full board).tap.brstAsserted = false := by
  unfold LookupHolds OutsideWindows prbSettled; decide
theorem test_meets_burst_chopped : (inFlight 0x40 .choppedLow board).tap.readsInFlight[0]? = some ⟨0x40, .choppedLow⟩ := by decide

/-- The board with its clock stopped for so many ticks. -/
def stopped (x : ClockPresence) (k : Nat) (fence : Bool) : State :=
  { board with tap := { board.tap with presence := x, absence := k }
               vrd := { board.vrd with settings := { board.vrd.settings with fenceOnLoss := fence } } }

theorem test_meets_clock_stop : board.tap.presence = .running ∧ board.tap.port.line = none := by decide
theorem test_meets_channel_loss : (stopped .stopped 1000 false).tap.presence = .stopped
    ∧ (stopped .stopped 1000 false).vrd.settings.channelLossLimit ≠ 0
    ∧ (stopped .stopped 1000 false).vrd.settings.channelLossLimit ≤ (stopped .stopped 1000 false).tap.absence
    ∧ (stopped .stopped 1000 false).vrd.settings.fenceOnLoss = false := by decide
theorem test_meets_channel_loss_fences :
    (stopped .stopped 1000 true).vrd.settings.channelLossLimit ≤ (stopped .stopped 1000 true).tap.absence
      ∧ (stopped .stopped 1000 true).vrd.settings.fenceOnLoss = true ∧ (stopped .stopped 1000 true).vrd.verdict = .normal
      ∧ (stopped .stopped 1000 true).vrd.triggers.channelLoss = false := by decide
/-- A loss that fences in FAULT, in HOLDOFF, and one whose trigger stands already. -/
theorem test_meets_channel_loss_verdicts :
    let fault (b : Bool) : State := { stopped .stopped 1000 true with
      vrd := { (stopped .stopped 1000 true).vrd with
        verdict := .fault, triggers := { pairs := 1, streams := 0, channelLoss := b } } }
    let held : State := { stopped .stopped 1000 true with
      vrd := { (stopped .stopped 1000 true).vrd with verdict := .holdoff { entryTime := 0, highRunStart := none, limitPassed := false } } }
    (fault false).vrd.triggers.has .channelLoss = false ∧ (fault true).vrd.triggers.has .channelLoss = true
      ∧ held.vrd.triggers.has .channelLoss = false ∧ held.tap.presence = .stopped
      ∧ held.vrd.settings.channelLossLimit ≤ held.tap.absence ∧ held.vrd.settings.fenceOnLoss = true := by decide
theorem test_meets_clock_returns : (stopped .stopped 1 false).tap.presence = .stopped
    ∧ (stopped .lost 1000 false).tap.presence = .lost ∧ (stopped .lost 1000 false).tap.brstAsserted = false := by decide
theorem test_meets_board_reset : board.tap.brstAsserted = false ∧ (run .boardResetAsserted board).tap.brstAsserted = true
    ∧ (run .boardResetAsserted board).echo.prb = .idle ∧ (run .boardResetAsserted board).echo.single.isBusy = false
    ∧ currentEntry (run .boardResetAsserted board) = none ∧ (run .boardResetAsserted board).echo.probeQueue = [] := by decide
/-- A single probe that was accepted while BRST_N was asserted, with the port IDLE and with it RELEASING. -/
theorem test_meets_board_reset_probe : ∀ x ∈ [PortPhase.idle, PortPhase.releasing],
    let s : State := { run .boardResetAsserted board with
      tap := { (run .boardResetAsserted board).tap with port := { ProbePort.initial with phase := x } }
      echo := { (run .boardResetAsserted board).echo with single := .busy 0x1040 } }
    s.tap.brstAsserted = true ∧ s.echo.prb = .idle ∧ currentEntry s = none ∧ s.echo.probeQueue = [] ∧ s.tap.port.phase = x := by
  decide

/-! Records. -/

/-- What the statement of writes asks of a state. -/
def MeetsWrite (b : InFlight) (n : StreamIx) (slot : Nat) (line : Fin 8) (before after : List Assembly) (old : Option Assembly)
    (s : State) : Prop :=
  LookupHolds s ∧ WriteTo s 0 b n slot line ∧ prbSettled s ∧ (s.stream n).assemblies = before ++ old.toList ++ after
    ∧ (∀ a ∈ before ++ after, a.slot ≠ slot) ∧ (∀ a ∈ old, a.slot = slot) ∧ (old = none → after = [])

/-- A state without echo entries has none to retire. -/
theorem no_entry_rests {s : State} (h : s.echo.entries = []) (n : StreamIx) (slot : Nat) : ∀ first e rest,
    s.echo.entries = first ++ e :: rest → e.stream = n → e.slot = slot → PrbRests e (first ++ rest) s := by simp [h]

/-- An assembly of a slot, its header captured or not. -/
def assemblyOf (slot : Nat) (h : Option Header) : Assembly := { Assembly.fresh slot 0 with header := h }

/-- The board with four-line slots on stream 1, its commit mode and its open assemblies, and a write at a line in flight. -/
def writing (mode : CommitMode) (l : List Assembly) (a : LineAddr) : State :=
  inFlight a .full (rebuildLookup (board.modStream 0 fun x =>
    { x with desc := { x.desc with slotSize := .bytes256, commitMode := mode }, assemblies := l }))

/-- The write at slot 1 of stream 1, of one line, with no assembly open. -/
theorem test_meets_one_line : MeetsWrite ⟨0x40, .full⟩ 0 1 0 [] [] none (inFlight 0x40 .full board)
    ∧ (inFlight 0x40 .full board).echo.entries = [] ∧ ((inFlight 0x40 .full board).stream 0).desc.slotSize.lines = 1 := by
  unfold MeetsWrite LookupHolds WriteTo prbSettled; decide
/-- The header line of a four-line slot in HEADER mode, which opens its assembly behind another slot's. -/
theorem test_meets_header_line : MeetsWrite ⟨0x100, .full⟩ 0 1 0 [assemblyOf 2 none] [] none
      (writing .header [assemblyOf 2 none] 0x100)
    ∧ ((writing .header [assemblyOf 2 none] 0x100).stream 0).desc.slotSize.lines ≠ 1 := by
  unfold MeetsWrite LookupHolds WriteTo prbSettled; decide
/-- The header line in TAIL mode with a header captured, between two other slots' assemblies. -/
theorem test_meets_header_again : MeetsWrite ⟨0x100, .full⟩ 0 1 0 [assemblyOf 2 none] [assemblyOf 0 none]
    (some (assemblyOf 1 (some (headerIn (lineOf fun _ => 1)))))
    (writing .tail [assemblyOf 2 none, assemblyOf 1 (some (headerIn (lineOf fun _ => 1))), assemblyOf 0 none] 0x100) := by
  unfold MeetsWrite LookupHolds WriteTo prbSettled; decide
/-- The last line in TAIL mode, with a header captured and without; the line before it is not the last. -/
theorem test_meets_last_line : MeetsWrite ⟨0x1C0, .full⟩ 0 1 3 [] [] (some (assemblyOf 1 (some (headerIn (lineOf fun _ => 1)))))
    (writing .tail [assemblyOf 1 (some (headerIn (lineOf fun _ => 1)))] 0x1C0) := by
  unfold MeetsWrite LookupHolds WriteTo prbSettled; decide
/-- The board of a last line that arrives chopped, high half only, with no assembly open. -/
def choppedLast : State := (writing .tail [] 0x1C0).modTap fun t => { t with writesInFlight := [⟨0x1C0, .choppedHigh⟩] }
theorem test_meets_last_line_alone : MeetsWrite ⟨0x1C0, .choppedHigh⟩ 0 1 3 [] [] none choppedLast := by
  unfold MeetsWrite LookupHolds WriteTo prbSettled; decide
theorem test_meets_middle_line : MeetsWrite ⟨0x180, .full⟩ 0 1 2 [] [] none (writing .tail [] 0x180)
    ∧ (3 : Fin 8).1 + 1 = ((writing .tail [] 0x1C0).stream 0).desc.slotSize.lines := by
  unfold MeetsWrite LookupHolds WriteTo prbSettled; decide
/-- Four assemblies open, none of the slot written. -/
def fourOpen : List Assembly := [assemblyOf 0 none, assemblyOf 2 none, assemblyOf 3 none, assemblyOf 5 none]
theorem test_meets_assembly_full : MeetsWrite ⟨0x140, .full⟩ 0 1 1 fourOpen [] none (writing .tail fourOpen 0x140)
    ∧ 4 ≤ fourOpen.length := by
  unfold MeetsWrite LookupHolds WriteTo prbSettled; decide
/-- The bytes enabled: none, the header whole, the header in part, and no byte of the header. -/
theorem test_meets_header_bytes : ((0 : ByteMask) &&& sentBytes .full) = 0
    ∧ ((BitVec.allOnes 64 : ByteMask) &&& sentBytes .choppedLow).extractLsb' 0 16 = 0xFFFF#16
    ∧ ((0xFF : ByteMask) &&& sentBytes .full).extractLsb' 0 16 = 0x00FF#16
    ∧ ((BitVec.allOnes 64 : ByteMask) &&& sentBytes .choppedHigh).extractLsb' 0 16 = 0#16 := by decide
/-- Headers that each check drops, and one that passes, on a ring of four slots (sequence 1 belongs in slot 1 on lap 0). -/
theorem test_meets_checks : let h : Header := { marker := 0, kind := 1, flags := 0, tag := 7, sequence := 1, spare := 0 }
    let d := (board.stream 0).desc
    [dropCause d 1 { h with marker := 1 }, dropCause d 1 { h with kind := 2 }, dropCause d 2 h, dropCause d 1 { h with flags := 1 },
      dropCause d 1 h] = [some .markerBad, some .kindBad, some .slotMismatch, some .lapStale, none] := by decide
/-- The last slot of a ring. -/
theorem test_meets_last_slot : WholeReadOf (inFlight 0xC0 .full board) 0 0 3 0 := ⟨⟨0xC0, .full⟩, by decide⟩
/-- Distances at the ends of the clauses of the sequence check. -/
theorem test_meets_sequence : ((102 : BitVec 32) - 101).toNat < 3 ∧ 3 ≤ ((104 : BitVec 32) - 101).toNat
    ∧ ((101 : BitVec 32) + 0x7FFFFFFF - 101).toNat < 2 ^ 31 ∧ 2 ^ 31 ≤ ((101 : BitVec 32) + 0x80000000 - 101).toNat := by decide

/-- An assembly that opened at 0. -/
def assembly : Assembly := Assembly.fresh 1 0

/-- The board at a time, with that assembly open on stream 1 and a silence limit. -/
def assembling (t : Clock) : State :=
  (boardAt t).modStream 0 fun x => { x with assemblies := [assembly], desc := { x.desc with silenceLimit := 1000 } }

theorem test_meets_abandon : AssembliesDistinct (assembling 1000) ∧ assembly ∈ ((assembling 1000).stream 0).assemblies
    ∧ ((assembling 1000).stream 0).desc.assemblyLimit ≤ ((assembling 1000).clock - assembly.openedAt).toNat := by
  unfold AssembliesDistinct; decide
theorem test_meets_silence : ((assembling 1000).stream 0).enabled = true ∧ ((assembling 1000).stream 0).desc.silenceLimit ≠ 0
    ∧ ((assembling 1000).stream 0).silent = false ∧ (assembling 1000).tap.brstAsserted = false
    ∧ ((assembling 1000).stream 0).desc.silenceLimit
        ≤ ((assembling 1000).clock - ((assembling 1000).stream 0).lastAccepted).toNat := by decide

/-- Three open entries, two of one slot. -/
def three : State := inFlight 0x40 .full (withLists 9 [entry 7 1, entry 8 1, entry 9 2] [])

theorem test_meets_pickup : LookupHolds three ∧ WholeReadOf three 0 0 1 0 ∧ prbSettled three
    ∧ (three.stream 0).desc.role = .request ∧ three.pairOf 0 = some 0 ∧ (three.pair 0).health.active = true
    ∧ (three.pair 0).openList = [entry 7 1] ++ entry 8 1 :: [entry 9 2] ∧ (entry 8 1).slot = 1
    ∧ ∀ f ∈ [entry 9 2], f.slot ≠ 1 :=
  ⟨by unfold LookupHolds; decide, ⟨⟨0x40, .full⟩, by decide⟩, by unfold prbSettled; decide, by decide⟩
/-- No entry names the slot read. -/
theorem test_meets_pickup_none : ∀ e ∈ (three.pair 0).openList, e.slot ≠ 3 := by decide
/-- A read in the PULSE stream's first slot, in a slot of the REQUEST stream of a DISABLED pair, and of one that no pair names. -/
theorem test_meets_pickup_pulse : LookupHolds (inFlight 0x2000 .full board) ∧ WholeReadOf (inFlight 0x2000 .full board) 0 2 0 0
    ∧ prbSettled (inFlight 0x2000 .full board) ∧ ((inFlight 0x2000 .full board).stream 2).desc.role = .pulse :=
  ⟨by unfold LookupHolds; decide, ⟨⟨0x2000, .full⟩, by decide⟩, by unfold prbSettled; decide, by decide⟩
/-- The board with no pair, a read of slot 1 of stream 1 in flight. -/
def unpaired : State := inFlight 0x40 .full (board.modPair 0 fun _ => Pair.initial)
theorem test_meets_pickup_unserved : (∀ s ∈ [inFlight 0x40 .full (withHealth .disabled board), unpaired],
      LookupHolds s ∧ prbSettled s ∧ (s.stream 0).desc.role = .request
        ∧ ∀ p, s.pairOf 0 = some p → (s.pair p).health = .disabled)
    ∧ unpaired.pairOf 0 = none
    ∧ WholeReadOf (inFlight 0x40 .full (withHealth .disabled board)) 0 0 1 0 ∧ WholeReadOf unpaired 0 0 1 0 :=
  ⟨by unfold LookupHolds prbSettled; decide, by decide, ⟨⟨0x40, .full⟩, by decide⟩, ⟨⟨0x40, .full⟩, by decide⟩⟩

/-- An echo entry of stream 2, slot 1. -/
def echo (written readMask : LineSet) (expected : BitVec 32) (status : ProbeStatus) : EchoEntry :=
  { pair := 0, stream := 1, slot := 1, slotBase := 0x1040, written := written, expected := expected, commitTime := 5
    readMask := readMask, readSum := 0, status := status }

/-- The board with echo entries, and a read of stream 2's slot 1 in flight. -/
def echoing (l : List EchoEntry) : State :=
  let s := inFlight 0x1040 .full board
  { s with echo := { s.echo with entries := l } }

/-- The only line missing (the entry is compared), and one of two. -/
theorem test_meets_fetch : LookupHolds (echoing [echo 1 0 0 .watching]) ∧ WholeReadOf (echoing [echo 1 0 0 .watching]) 0 1 1 0
    ∧ prbSettled (echoing [echo 1 0 0 .watching]) ∧ ((echoing [echo 1 0 0 .watching]).stream 1).desc.role = .completion
    ∧ (echoing [echo 1 0 0 .watching]).echo.entries = [] ++ echo 1 0 0 .watching :: []
    ∧ (echo 1 0 0 .watching).written.getLsbD 0 = true ∧ (echo 1 0 0 .watching).readMask.getLsbD 0 = false
    ∧ ((echo 1 0 0 .watching).readMask ||| BitVec.ofNat 8 (2 ^ 0)) = (echo 1 0 0 .watching).written
    ∧ ((echo 3 0 0 .watching).readMask ||| BitVec.ofNat 8 (2 ^ 0)) ≠ (echo 3 0 0 .watching).written :=
  ⟨by unfold LookupHolds; decide, ⟨⟨0x1040, .full⟩, by decide⟩, by unfold prbSettled; decide, by decide⟩
/-- The only line missing of a QUEUED entry while the PRB is busy, and of the PROBING entry whose line is in hand. -/
theorem test_meets_fetch_probed :
    let queued : State := { echoing [echo 1 0 0 .queued] with
      echo := { board.echo with entries := [echo 1 0 0 .queued], probeQueue := [{ stream := 1, slot := 1 }]
                                prb := .reading { purpose := .singleProbe, address := 0, index := 0, takenAt := 0, discard := false } } }
    let probed : State := { echoing [echo 1 0 0 .probing] with
      echo := { board.echo with entries := [echo 1 0 0 .probing]
                                prb := .requesting { purpose := .currentEntry, address := 0x1040, index := 0, takenAt := 0
                                                     discard := false } } }
    prbSettled queued ∧ PrbRests (echo 1 0 0 .queued) [] queued ∧ prbSettled probed ∧ PrbRests (echo 1 0 0 .probing) [] probed := by
  unfold prbSettled PrbRests; decide
/-- A read of a slot that no entry watches, behind an entry of another slot; of a line not written; and of a line already read. -/
theorem test_meets_fetch_unwatched :
    let other : EchoEntry := { echo 1 0 0 .watching with slot := 2 }
    LookupHolds (echoing [other, echo 2 0 0 .watching]) ∧ prbSettled (echoing [other, echo 2 0 0 .watching])
      ∧ (echoing [other, echo 2 0 0 .watching]).echo.entries = [other] ++ echo 2 0 0 .watching :: []
      ∧ (∀ e ∈ [other], ¬ (e.stream = 1 ∧ e.slot = 1)) ∧ (echo 2 0 0 .watching).slot = 1
      ∧ (echo 2 0 0 .watching).written.getLsbD 0 = false ∧ (echo 3 1 0 .watching).readMask.getLsbD 0 = true := by
  unfold LookupHolds prbSettled; decide
theorem test_meets_fetch_unwatched_read : WholeReadOf (echoing [echo 2 0 0 .watching]) 0 1 1 0 := ⟨⟨0x1040, .full⟩, by decide⟩
/-- A write to the slot that an entry of a COMPLETION stream watches. -/
theorem test_meets_overtaking : WriteTo (echoing [echo 1 0 0 .watching]) 0 ⟨0x1040, .full⟩ 1 1 0
    ∧ ((echoing [echo 1 0 0 .watching]).stream 1).desc.role = .completion
    ∧ (echoing [echo 1 0 0 .watching]).echo.entries = [] ++ echo 1 0 0 .watching :: []
    ∧ PrbRests (echo 1 0 0 .watching) [] (echoing [echo 1 0 0 .watching]) := by
  unfold WriteTo PrbRests; decide
/-- A line of zeros sums to 0 and a line of ones does not: the comparison's two ends. -/
theorem test_meets_fetch_sums : contribution 0 (lineOf fun _ => 0) = 0 ∧ contribution 0 (lineOf fun _ => 1) ≠ 0 := by decide

/-! The Correlator. -/

/-- A request of stream 1 whose tag the pair does not hold. -/
def requesting (l : List Entry) (quota : Nat) : State :=
  (withRecord { record 0 .work 0 with tag := 6 } (withLists 9 l [])).modPair 0 fun q => { q with desc := { q.desc with quota := quota } }

theorem test_meets_insert : HeadRecord (requesting [] 256) 0 { record 0 .work 0 with tag := 6 } []
    ∧ prbSettled (requesting [] 256) ∧ ((requesting [] 256).stream 0).desc.role = .request
    ∧ ((requesting [] 256).pair 0).health.enabled = true ∧ (∀ e ∈ ((requesting [] 256).pair 0).openList, e.tag ≠ 6)
    ∧ (∀ e ∈ ((requesting [] 256).pair 0).lateList, e.entry.tag ≠ 6)
    ∧ ((requesting [] 256).clock - (record 0 .work 0).commitTime).toNat < ((requesting [] 256).pair 0).timeout
    ∧ entriesInUse (requesting [] 256) < 2048 := by
  unfold HeadRecord prbSettled; decide
theorem test_meets_insert_quota : HeadRecord (requesting [entry 7 1] 1) 0 { record 0 .work 0 with tag := 6 } []
    ∧ ((requesting [entry 7 1] 1).pair 0).openList ≠ []
    ∧ ((requesting [entry 7 1] 1).pair 0).openList.length + ((requesting [entry 7 1] 1).pair 0).lateList.length
        = ((requesting [entry 7 1] 1).pair 0).desc.quota := by
  unfold HeadRecord; decide

/-- A record of a stream for pair 1, which holds tag 7 open and tag 8 late. -/
def serving (r : Record) : State := withRecord r (withLists 9 [entry 7 1] [{ entry := entry 8 2, lateSince := 3 }])

theorem test_meets_retry : HeadRecord (serving (record 0 .work 0)) 0 (record 0 .work 0) []
    ∧ prbSettled (serving (record 0 .work 0)) ∧ TagsDistinct (serving (record 0 .work 0))
    ∧ ((serving (record 0 .work 0)).pair 0).openList = [] ++ entry 7 1 :: [] ∧ (entry 7 1).tag = (record 0 .work 0).tag := by
  unfold HeadRecord prbSettled TagsDistinct; decide
theorem test_meets_retry_late :
    ((serving { record 0 .work 0 with tag := 8 }).pair 0).lateList = [] ++ { entry := entry 8 2, lateSince := 3 } :: []
      ∧ (entry 8 2).tag = 8 ∧ TagsDistinct (serving { record 0 .work 0 with tag := 8 }) := by
  unfold TagsDistinct; decide
theorem test_meets_retry_draining : HeadRecord (withHealth .draining (serving { record 0 .work 0 with tag := 6 })) 0
      { record 0 .work 0 with tag := 6 } []
    ∧ (∀ e ∈ ((withHealth .draining (serving { record 0 .work 0 with tag := 6 })).pair 0).openList, e.tag ≠ 6) := by
  unfold HeadRecord; decide
/-- A retry whose record carries OVERRUN and a gap of 4. -/
theorem test_meets_retry_unseen : let r : Record := { record 0 .work 0 with overrun := true, gap := some 4 }
    HeadRecord (serving r) 0 r [] ∧ ((serving r).pair 0).openList = [] ++ entry 7 1 :: [] ∧ (entry 7 1).tag = r.tag := by
  unfold HeadRecord; decide
/-- Records that are ignored: of a DISABLED pair, and of streams that no pair names. -/
theorem test_meets_ignored :
    ∀ r ∈ [record 0 .work 0, record 1 .work 0, record 1 .quiesce 0, record 1 .resume 0],
      ∀ b ∈ [withHealth .disabled board, board.modPair 0 fun _ => Pair.initial],
        (withRecord r b).commitQueue = [r] ∧ prbSettled (withRecord r b)
          ∧ (((withRecord r b).stream r.stream).desc.role = .request ∧ r.kind = .work
            ∨ ((withRecord r b).stream r.stream).desc.role = .completion ∧ r.kind ≠ .pulse)
          ∧ ∀ p, (withRecord r b).pairOf r.stream = some p → ((withRecord r b).pair p).health = .disabled := by
  unfold prbSettled; decide
theorem test_meets_completion : HeadRecord (serving (record 1 .work 0)) 0 (record 1 .work 0) []
    ∧ prbSettled (serving (record 1 .work 0)) ∧ TagsDistinct (serving (record 1 .work 0))
    ∧ ((serving (record 1 .work 0)).stream 1).desc.role = .completion ∧ (record 1 .work 0).hold = false
    ∧ (serving (record 1 .work 0)).echo.entries = []
    ∧ entry 7 1 ∈ ((serving (record 1 .work 0)).pair 0).openList
    ∧ timeoutOf ((serving (record 1 .work 0)).pair 0).desc
        (((serving (record 1 .work 0)).pair 0).est.update ((serving (record 1 .work 0)).pair 0).desc 5)
        (serving (record 1 .work 0)).vrd.factor = ((serving (record 1 .work 0)).pair 0).timeout := by
  unfold HeadRecord prbSettled TagsDistinct; decide
theorem test_meets_completion_late : ({ entry := entry 8 2, lateSince := 3 } : LateEntry)
      ∈ ((serving { record 1 .work 0 with tag := 8 }).pair 0).lateList
    ∧ (entry 8 2).tag = ({ record 1 .work 0 with tag := 8 } : Record).tag
    ∧ timeoutOf ((serving { record 1 .work 0 with tag := 8 }).pair 0).desc
        (((serving { record 1 .work 0 with tag := 8 }).pair 0).est.update
          ((serving { record 1 .work 0 with tag := 8 }).pair 0).desc 5) 1
        = ((serving { record 1 .work 0 with tag := 8 }).pair 0).timeout
    ∧ (∀ f ∈ ((serving { record 1 .work 0 with tag := 8 }).pair 0).lateList, f.entry.tag = 8) := by decide
/-- A completion that frees the last entry of a DRAINING pair. -/
theorem test_meets_completion_draining :
    let s := withHealth .draining (withRecord (record 1 .work 0) (withLists 9 [entry 7 1] []))
    HeadRecord s 0 (record 1 .work 0) [] ∧ (s.pair 0).health = .draining
      ∧ ((s.pair 0).openList.filter fun f => decide (f.tag ≠ (record 1 .work 0).tag)) = [] ∧ (s.pair 0).lateList = [] := by
  unfold HeadRecord; decide
/-- A matched completion with expect fetch yes: watched with room on the echo list, counted unwatched with no certain line, and with
64 entries on the list, the oldest WATCHING. -/
def fetching (r : Record) (l : List EchoEntry) : State :=
  { (serving r).modPair 0 (fun q => { q with desc := { q.desc with expectFetch := true } }) with
    echo := { board.echo with entries := l } }
theorem test_meets_completion_fetched : ∀ r ∈ [record 1 .work 0, { record 1 .work 0 with certain := 0 }, record 1 .work 2],
    HeadRecord (fetching r []) 0 r [] ∧ prbSettled (fetching r []) ∧ ((fetching r []).pair 0).desc.expectFetch = true
      ∧ (fetching r []).echo.entries.length < 64 ∧ entry 7 1 ∈ ((fetching r []).pair 0).openList := by
  unfold HeadRecord prbSettled; decide
theorem test_meets_completion_fetched_full :
    let s := fetching (record 1 .work 0) (List.replicate 64 (echo 1 0 0 .watching))
    64 ≤ s.echo.entries.length ∧ HeadRecord s 0 (record 1 .work 0) []
      ∧ ∀ oldest others, s.echo.entries = oldest :: others → PrbRests oldest others s := by
  refine ⟨by decide, ?_, fun oldest others h => ?_⟩
  · unfold HeadRecord; decide
  · have g : oldest = echo 1 0 0 .watching := (List.cons.inj h).1.symm
    rw [g]; exact fun k => nomatch k
/-- Below the hold limit, and at it. -/
theorem test_meets_hold : HeadRecord (serving (record 1 .work 2)) 0 (record 1 .work 2) [] ∧ (record 1 .work 2).hold = true
    ∧ prbSettled (serving (record 1 .work 2)) ∧ TagsDistinct (serving (record 1 .work 2))
    ∧ ((serving (record 1 .work 2)).pair 0).openList = [] ++ entry 7 1 :: [] ∧ ((serving (record 1 .work 2)).pair 0).health.enabled = true
    ∧ ((serving (record 1 .work 2)).clock - (record 1 .work 2).commitTime).toNat < ((serving (record 1 .work 2)).pair 0).timeout
    ∧ (entry 7 1).holdCount < ((serving (record 1 .work 2)).pair 0).desc.holdLimit
    ∧ ¬ ({ entry 7 1 with holdCount := 2 } : Entry).holdCount < ((serving (record 1 .work 2)).pair 0).desc.holdLimit := by
  unfold HeadRecord prbSettled TagsDistinct; decide
/-- The late entry of tag 8, below the hold limit, by a record carrying OVERRUN. -/
theorem test_meets_hold_late :
    let r : Record := { record 1 .work 2 with tag := 8, overrun := true }
    HeadRecord (serving r) 0 r [] ∧ r.hold = true ∧ ((serving r).pair 0).lateList = [] ++ { entry := entry 8 2, lateSince := 3 } :: []
      ∧ (∀ f ∈ ((serving r).pair 0).openList, f.tag ≠ r.tag →
          ((serving r).clock - f.arrival).toNat < ((serving r).pair 0).timeout)
      ∧ (entry 8 2).holdCount < ((serving r).pair 0).desc.holdLimit := by
  unfold HeadRecord; decide
theorem test_meets_orphan : HeadRecord (serving { record 1 .work 0 with tag := 6 }) 0 { record 1 .work 0 with tag := 6 } []
    ∧ prbSettled (serving { record 1 .work 0 with tag := 6 })
    ∧ (serving { record 1 .work 0 with tag := 6 }).echo.entries.length < 64
    ∧ (∀ e ∈ ((serving { record 1 .work 0 with tag := 6 }).pair 0).openList, e.tag ≠ 6)
    ∧ (∀ e ∈ ((serving { record 1 .work 0 with tag := 6 }).pair 0).lateList, e.entry.tag ≠ 6) := by
  unfold HeadRecord prbSettled; decide
/-- A watched completion that finds 64 entries on the echo list, the oldest of them WATCHING, and one that finds none. -/
theorem test_meets_echo_full :
    let r : Record := { record 1 .work 0 with tag := 6, overrun := true }
    let s : State := { (serving r).modPair 0 (fun q => { q with desc := { q.desc with expectFetch := true } }) with
      echo := { board.echo with entries := List.replicate 64 (echo 1 0 0 .watching) } }
    HeadRecord s 0 r [] ∧ (s.pair 0).desc.expectFetch = true ∧ r.certain ≠ 0 ∧ 64 ≤ s.echo.entries.length
      ∧ s.echo.entries = echo 1 0 0 .watching :: List.replicate 63 (echo 1 0 0 .watching)
      ∧ PrbRests (echo 1 0 0 .watching) (List.replicate 63 (echo 1 0 0 .watching)) s
      ∧ (serving r).echo.entries.length < 64 ∧ prbSettled s := by
  refine ⟨?_, rfl, by decide, by decide, rfl, ?_, by decide, ?_⟩
  · unfold HeadRecord; decide
  · intro h; cases h
  · exact .inr (.inr ⟨rfl, by decide, rfl⟩)
theorem test_meets_quiesce : HeadRecord (serving (record 1 .quiesce 0)) 0 (record 1 .quiesce 0) []
    ∧ HeadRecord (serving (record 1 .resume 0)) 0 (record 1 .resume 0) [] ∧ prbSettled (serving (record 1 .resume 0)) := by
  unfold HeadRecord prbSettled; decide

/-- Pair 1 QUIESCED since 0. -/
def quiesced (t : Clock) : State :=
  (withHealth .quiesced (boardAt t)).modPair 0 fun q => { q with hev := { q.hev with quiesceStart := some 0 } }

theorem test_meets_quiesce_overrun : ((quiesced 3000000).pair 0).health = .quiesced
    ∧ ((quiesced 3000000).pair 0).hev.quiesceStart = some 0
    ∧ ((quiesced 3000000).pair 0).desc.quiesceLimit ≤ ((quiesced 3000000).clock - 0).toNat := by decide
theorem test_meets_pulse : (withRecord (record 2 .pulse 0) (boardAt 9)).commitQueue = record 2 .pulse 0 :: []
    ∧ ((withRecord (record 2 .pulse 0) (boardAt 9)).stream 2).desc.role = .pulse
    ∧ prbSettled (withRecord (record 2 .pulse 0) (boardAt 9)) := by unfold prbSettled; decide

/-- Stream 3 with fence yes and two misses. -/
def missing (t : Clock) : State :=
  (boardAt t).modStream 2 fun x => { x with desc := { x.desc with fence := true }, pulse := { x.pulse with missCount := 2 } }

theorem test_meets_missed : ((boardAt 10000).stream 2).pulse.timer = .running 0
    ∧ ((boardAt 10000).stream 2).desc.maxInterval ≤ ((boardAt 10000).clock - 0).toNat
    ∧ ((boardAt 10000).stream 2).desc.fence = false := by decide
theorem test_meets_missed_fences : ((missing 10000).stream 2).pulse.timer = .running 0
    ∧ ((missing 10000).stream 2).desc.maxInterval ≤ ((missing 10000).clock - 0).toNat
    ∧ ((missing 10000).stream 2).desc.fence = true
    ∧ ((missing 10000).stream 2).desc.missLimit = ((missing 10000).stream 2).pulse.missCount + 1
    ∧ (missing 10000).vrd.verdict = .normal ∧ (missing 10000).vrd.triggers.has (.stream 2) = false := by decide
/-- The fenced miss in FAULT, where another trigger stands, and in HOLDOFF. -/
theorem test_meets_missed_verdicts :
    let fault : State := { missing 10000 with
      vrd := { board.vrd with verdict := .fault, triggers := { pairs := 1, streams := 0, channelLoss := false } } }
    let held : State := { missing 10000 with
      vrd := { board.vrd with verdict := .holdoff { entryTime := 0, highRunStart := none, limitPassed := false } } }
    fault.vrd.triggers.has (.stream 2) = false ∧ held.vrd.triggers.has (.stream 2) = false
      ∧ (held.stream 2).pulse.timer = .running 0 ∧ (held.stream 2).desc.maxInterval ≤ (held.clock - 0).toNat
      ∧ (held.stream 2).desc.missLimit = (held.stream 2).pulse.missCount + 1 := by decide
/-- The largest sample, and an estimator at the top of its range. -/
theorem test_meets_sample : (1048575 : Nat) ≤ 1048575 ∧ ({ m16 := 16777200, d16 := 16777200, n := 255, lastSample := none } : Estimator).n ≠ 0
    ∧ PairDesc.default.tfloor ≤ PairDesc.default.tceil := by decide

/-! Expiry, windows and health. -/

theorem test_meets_expiry : ((withLists 100000 [entry 7 1] []).pair 0).health ≠ .disabled
    ∧ ((withLists 100000 [entry 7 1] []).pair 0).openList = entry 7 1 :: []
    ∧ ((withLists 100000 [entry 7 1] []).pair 0).timeout ≤ ((withLists 100000 [entry 7 1] []).clock - (entry 7 1).arrival).toNat := by
  decide
theorem test_meets_loss :
    ((withHealth .draining (withLists 100000 [] [{ entry := entry 7 1, lateSince := 0 }])).pair 0).lateList
        = { entry := entry 7 1, lateSince := 0 } :: []
      ∧ ((withHealth .draining (withLists 100000 [] [{ entry := entry 7 1, lateSince := 0 }])).pair 0).timeout
          ≤ ((boardAt 100000).clock - 0).toNat := by decide
theorem test_meets_window : ((boardAt 10000).pair 0).hev.window = some window0 ∧ window0.held = false
    ∧ ((boardAt 10000).pair 0).health.enabled = true
    ∧ ((boardAt 10000).pair 0).desc.window ≤ ((boardAt 10000).clock - window0.start).toNat := by decide

/-- Pair 1 with a window, a health state, a history and a confirm counter, at the window's end. -/
def judged (w : EvalWindow) (h : Health) (l : List Bool) (confirm : Nat) (pending : Bool) (v : Verdict) : State :=
  { (boardAt 10000).modPair 0 (fun q => { q with
      health := h, hev := { q.hev with window := some w, history := l, confirm := confirm, promotionPending := pending } }) with
    vrd := { board.vrd with verdict := v } }

/-- A HOLDOFF that entered at 0. -/
def holding (run : Option Clock) : HoldOff := { entryTime := 0, highRunStart := run, limitPassed := false }

/-- A BAD window of a SUSPECT pair whose history is BAD, one short of the confirm count, in NORMAL and in HOLDOFF. -/
theorem test_meets_health_moves :
    ((judged (counted 63 1 false) .suspect [true, true] 2 false .normal).pair 0).hev.window = some (counted 63 1 false)
      ∧ ((judged (counted 63 1 false) .suspect [true, true] 2 false .normal).pair 0).desc.fence = false
      ∧ (counted 63 1 false).paired.toNat / 2 ^ 6 < (counted 63 1 false).adverse.toNat
      ∧ ((judged (counted 63 1 false) .suspect [true, true] 2 false .normal).pair 0).desc.confirmCount ≤ 2 + 1
      ∧ promotionDeferred (judged (counted 63 1 false) .suspect [true, true] 2 false .normal) = false
      ∧ promotionDeferred (judged (counted 63 1 false) .suspect [true, true] 2 false (.holdoff (holding none))) = true
      ∧ [true, true, true].countP (fun b => b) = 3 := by decide
/-- The window's end that fails a pair with fence yes: in NORMAL, in FAULT, and in HOLDOFF with its limit passed. -/
def failing (v : Verdict) : State :=
  (judged (counted 63 1 false) .suspect [true, true] 2 false v).modPair 0 fun q => { q with desc := { q.desc with fence := true } }
theorem test_meets_health_fences :
    ∀ v ∈ [Verdict.normal, .fault, .holdoff { entryTime := 0, highRunStart := none, limitPassed := true }],
      ((failing v).pair 0).desc.fence = true ∧ ((failing v).pair 0).health = .suspect
        ∧ ((failing v).pair 0).desc.confirmCount ≤ ((failing v).pair 0).hev.confirm + 1
        ∧ ((failing v).pair 0).desc.window ≤ ((failing v).clock - (counted 63 1 false).start).toNat
        ∧ promotionDeferred (failing v) = false ∧ (failing v).vrd.triggers.has (.pair 0) = false
        ∧ (failing v).tap.brstAsserted = false := by decide
/-- A GOOD window of a HEALTHY pair, and a first and a second BAD one. -/
theorem test_meets_health_settles :
    ((judged (counted 64 1 false) .healthy [] 0 false .normal).pair 0).health = .healthy ∧ 0 < (counted 64 1 false).paired.toNat
      ∧ ([false] : List Bool).countP (fun b => b) = 0 ∧ [false, true].countP (fun b => b) < 2
      ∧ 2 ≤ [true, true].countP (fun b => b) := by decide

/-! Echoes, probes and the verdict. -/

/-- An overdue entry behind one that is not, in either mode. -/
def overdue (l : List EchoEntry) (fetch : Bool) (prb : PrbState) : State :=
  { boardAt 5005 with echo := { board.echo with entries := l, fetchCheck := fetch, prb := prb } }

/-- The line of an entry that the PRB has in hand. -/
def inHand (k : Purpose) : LineInHand := { purpose := k, address := 0x1040, index := 0, takenAt := 0, discard := false }

theorem test_meets_overdue :
    (overdue [{ echo 1 0 0 .watching with commitTime := 6, slot := 2 }, echo 1 0 0 .watching] false .idle).echo.entries
        = [{ echo 1 0 0 .watching with commitTime := 6, slot := 2 }] ++ echo 1 0 0 .watching :: []
      ∧ ((boardAt 5005).pair 0).desc.echoDeadline ≤ ((boardAt 5005).clock - (echo 1 0 0 .watching).commitTime).toNat
      ∧ ((boardAt 5005).clock - 6).toNat < ((boardAt 5005).pair 0).desc.echoDeadline
      ∧ prbSettled (overdue [{ echo 1 0 0 .watching with commitTime := 6, slot := 2 }, echo 1 0 0 .watching] false .idle) := by
  unfold prbSettled; decide
theorem test_meets_overdue_queued :
    (overdue [echo 1 0 0 .watching] true (.requesting (inHand .singleProbe))).echo.fetchCheck = true
      ∧ (overdue [echo 1 0 0 .watching] true (.requesting (inHand .singleProbe))).echo.prb ≠ .idle := by decide
theorem test_meets_queued_line : (overdue [echo 3 1 0 .watching] true .idle).echo.entries = [echo 3 1 0 .watching]
    ∧ (overdue [echo 3 1 0 .watching] true .idle).echo.probeQueue = []
    ∧ (overdue [echo 3 1 0 .watching] true .idle).echo.single.isBusy = false
    ∧ (overdue [echo 3 1 0 .watching] true .idle).tap.port.phase = .idle
    ∧ (overdue [echo 3 1 0 .watching] true .idle).tap.port.pgnt = false
    ∧ (echo 3 1 0 .watching).written.getLsbD 1 = true ∧ (echo 3 1 0 .watching).readMask.getLsbD 1 = false
    ∧ (∀ j, j < 1 → (echo 3 1 0 .watching).written.getLsbD j = true → (echo 3 1 0 .watching).readMask.getLsbD j = true) := by
  decide

/-- The board with the port in a phase, the PRB in a state and a single probe. -/
def probing (x : PortPhase) (line : Option LineAddr) (prb : PrbState) (single : SingleProbe) : State :=
  { boardAt 200 with
    tap := { board.tap with port := { ProbePort.initial with phase := x, line := line } }
    echo := { board.echo with prb := prb, single := single } }

theorem test_meets_grant : (probing .requesting (some 0x1040) (.requesting (inHand .singleProbe)) (.busy 0x1040)).tap.port.phase
      = .requesting
    ∧ (probing .requesting (some 0x1040) (.requesting (inHand .singleProbe)) (.busy 0x1040)).tap.port.line = some 0x1040 := by decide
theorem test_meets_data_return :
    (probing .reading (some 0x1040) (.reading (inHand .singleProbe)) (.busy 0x1040)).tap.port.phase = .reading
      ∧ currentEntry (probing .reading (some 0x1040) (.reading (inHand .singleProbe)) (.busy 0x1040)) = none
      ∧ (probing .reading (some 0x1040) (.reading (inHand .singleProbe)) (.busy 0x1040)).echo.probeQueue = [] := by decide
theorem test_meets_discard : ({ inHand .currentEntry with discard := true } : LineInHand).discard = true
    ∧ (probing .reading (some 0x1040) (.reading { inHand .currentEntry with discard := true }) .idle).echo.single.isBusy = false := by
  decide
theorem test_meets_grant_released : (probing .releasing (some 0x1040) (.requesting (inHand .singleProbe)) .idle).tap.port.phase
      = .releasing
    ∧ (probing .releasing none .idle .idle).tap.port.line = none ∧ prbSettled (probing .releasing none .idle .idle) := by
  unfold prbSettled; decide
theorem test_meets_grant_hand_over : (probing .releasing none (.requesting (inHand .singleProbe)) (.busy 0x1040)).tap.port.phase
      = .releasing
    ∧ (probing .releasing none (.requesting (inHand .singleProbe)) (.busy 0x1040)).tap.port.line = none
    ∧ (probing .releasing none (.requesting (inHand .singleProbe)) (.busy 0x1040)).echo.prb = .requesting (inHand .singleProbe)
    ∧ (∀ h, (probing .releasing none .idle .idle).echo.prb ≠ .requesting h) :=
  ⟨rfl, rfl, rfl, fun _ h => nomatch h⟩
theorem test_meets_starve_single :
    (probing .requesting (some 0x1040) (.requesting (inHand .singleProbe)) (.busy 0x1040)).echo.waitLimit
        ≤ ((boardAt 200).clock - (inHand .singleProbe).takenAt).toNat
      ∧ (probing .requesting (some 0x1040) (.requesting (inHand .singleProbe)) (.busy 0x1040)).echo.single = .busy 0x1040 := by decide
/-- The line of a PROBING entry whose wait has reached the limit. -/
def starving : State :=
  { probing .requesting (some 0x1040) (.requesting (inHand .currentEntry)) .idle with
    echo := { board.echo with prb := .requesting (inHand .currentEntry), entries := [echo 1 0 0 .probing] } }
theorem test_meets_starve_entry : starving.echo.entries = [] ++ echo 1 0 0 .probing :: []
    ∧ starving.echo.single.isBusy = false ∧ starving.echo.probeQueue = []
    ∧ starving.echo.waitLimit ≤ (starving.clock - (inHand .currentEntry).takenAt).toNat := by decide

/-- A clock stop with a line at the port: discarded, of the single probe, and of the current entry. -/
theorem test_meets_clock_stop_line : starving.tap.presence = .running ∧ starving.tap.port.line = some 0x1040
    ∧ starving.echo.prb = .requesting (inHand .currentEntry) ∧ starving.echo.probeQueue = []
    ∧ starving.echo.entries = [] ++ echo 1 0 0 .probing :: [] ∧ starving.echo.single.isBusy = false
    ∧ (probing .reading (some 0x1040) (.reading { inHand .currentEntry with discard := true }) .idle).tap.presence = .running
    ∧ currentEntry (probing .reading (some 0x1040) (.reading { inHand .currentEntry with discard := true }) .idle) = none
    ∧ (probing .reading (some 0x1040) (.reading (inHand .singleProbe)) (.busy 0x1040)).echo.single = .busy 0x1040 := by decide
/-- The data of a line of the current entry: the first of two missing lines, the only one, and one that the adapter has read. -/
def lineReturns (e : EchoEntry) : State :=
  { probing .reading (some 0x1040) (.reading (inHand .currentEntry)) .idle with
    echo := { board.echo with prb := .reading (inHand .currentEntry), entries := [e] } }
theorem test_meets_entry_data : (lineReturns (echo 3 0 0 .probing)).tap.port.phase = .reading
    ∧ (lineReturns (echo 3 0 0 .probing)).echo.prb = .reading (inHand .currentEntry)
    ∧ (lineReturns (echo 3 0 0 .probing)).echo.single.isBusy = false ∧ (lineReturns (echo 3 0 0 .probing)).echo.probeQueue = []
    ∧ (lineReturns (echo 3 0 0 .probing)).echo.entries = [] ++ echo 3 0 0 .probing :: []
    ∧ (lineReturns (echo 3 0 0 .probing)).tap.brstAsserted = false
    ∧ ((echo 3 0 0 .probing).readMask ||| BitVec.ofNat 8 (2 ^ 0)) ≠ (echo 3 0 0 .probing).written
    ∧ ((echo 1 0 0 .probing).readMask ||| BitVec.ofNat 8 (2 ^ 0)) = (echo 1 0 0 .probing).written
    ∧ (echo 3 1 0 .probing).readMask.getLsbD 0 = true ∧ (echo 3 1 0 .probing).readMask.getLsbD 1 = false := by decide

/-- The board at a time in a verdict state. -/
def inVerdict (v : Verdict) (t : Clock) : State := { boardAt t with vrd := { board.vrd with verdict := v } }

theorem test_meets_calm : (inVerdict .fault 0).vrd.verdict = .fault ∧ board.vrd.verdict = .normal
    ∧ board.vrd.settings.holdoffLimit ≠ 0 ∧ (inVerdict (.holdoff (holding none)) 0).vrd.verdict = .holdoff (holding none) := by decide
/-- The hold-off at its release settle, and at its limit with a fenced pair pending and with none. -/
theorem test_meets_holdoff_release : (holding (some 0)).highRunStart = some 0
    ∧ (inVerdict (.holdoff (holding (some 0))) 20000).vrd.settings.releaseSettle
        ≤ ((inVerdict (.holdoff (holding (some 0))) 20000).clock - 0).toNat := by decide
theorem test_meets_holdoff_limit : (holding none).limitPassed = false
    ∧ (inVerdict (.holdoff (holding none)) 300000).vrd.settings.holdoffLimit ≠ 0
    ∧ (inVerdict (.holdoff (holding none)) 300000).vrd.settings.holdoffLimit
        ≤ ((inVerdict (.holdoff (holding none)) 300000).clock - (holding none).entryTime).toNat
    ∧ ∀ p : PairIx, ((inVerdict (.holdoff (holding none)) 300000).pair p).hev.promotionPending = false := by decide
/-- A hold-off whose pending pair has fence yes (its trigger would join), and fence no (it becomes FAILED alone). -/
theorem test_meets_holdoff_pending :
    let s (fence : Bool) := (judged (counted 0 0 false) .suspect [true, true] 2 true (.holdoff (holding none))).modPair 0
      fun q => { q with desc := { q.desc with fence := fence } }
    promotesTrigger (s true) 0 = true ∧ (∀ p : PairIx, promotesTrigger (s false) p = false)
      ∧ ((s false).pair 0).hev.promotionPending = true := by decide

/-! Commands of the managers. -/

theorem test_meets_set_stream_range : ((0 : Byte).toNat = 0 ∨ 16 < (0 : Byte).toNat) ∧ 16 < (17 : Byte).toNat := by decide
theorem test_meets_set_stream : let o := StreamDesc.default.operands 15
    o.stream.toNat = 15 + 1 ∧ (board.stream 15).enabled = false ∧ (board.stream 0).enabled = true ∧ o.role.toNat ≤ 2
      ∧ o.slotSize.toNat ≤ 3 ∧ o.commitMode.toNat ≤ 1 ∧ o.lapPolarity.toNat ≤ 1 ∧ o.fence.toNat ≤ 1 ∧ o.base.toNat % 4096 = 0
      ∧ o.slotCount.toNat = 2 ^ 4 ∧ o.base.toNat + o.slotCount.toNat * (64 * 2 ^ o.slotSize.toNat) ≤ 2 ^ 36
      ∧ ¬ ({ o with role := 3 } : SetStreamOps).role.toNat ≤ 2 := by decide
/-- The largest window at the top of the address space, and one slot size too large for it. -/
theorem test_meets_set_stream_top : (2 ^ 36 - 2097152) % 4096 = 0 ∧ 2 ^ 36 - 2097152 + 4096 * (64 * 2 ^ 3) ≤ 2 ^ 36
    ∧ ¬ 2 ^ 36 - 4096 + 128 * (64 * 2 ^ 0) ≤ 2 ^ 36 := by decide
/-- A disabled stream that a pair names. -/
theorem test_meets_set_stream_named : ((board.modStream 0 fun x => { x with enabled := false }).stream 0).enabled = false
    ∧ ((board.modStream 0 fun x => { x with enabled := false }).pair 0).desc.requestStream = some 0
    ∧ (1 : Byte).toNat ≤ 2 ∧ Role.completion ≠ ((board.modStream 0 fun x => { x with enabled := false }).stream 0).desc.role := by
  decide
/-- Streams that are enabled, disabled and overlapping (stream 4 at base 0), and disabled and clear (stream 5 at 12288). -/
theorem test_meets_enable_stream : (board.stream 0).enabled = true ∧ (board.stream 3).enabled = false
    ∧ (board.stream 3).desc.base ≤ 0 ∧ 0 < (board.stream 3).desc.base + (board.stream 3).desc.slotCount * (board.stream 3).desc.slotSize.bytes
    ∧ (board.stream 0).desc.base ≤ 0 := by decide
theorem test_meets_enable_stream_clear : overlapsEnabled 4 (board.modStream 4 fun x => { x with desc := { x.desc with base := 12288 } })
    = false := by decide
theorem test_meets_disable_stream : (∀ e ∈ (echoing [echo 1 0 0 .watching]).echo.entries, e.stream = 1 → e.status = .watching)
    ∧ ((echoing [echo 1 0 0 .watching]).stream 1).enabled = true ∧ prbSettled (echoing [echo 1 0 0 .watching]) := by
  unfold prbSettled; decide
theorem test_meets_set_pair : let o := { pair0.desc.operands 1 with requestStream := 0, completionStream := 0 }
    o.pair.toNat = 1 + 1 ∧ (board.pair 1).health = .disabled ∧ (board.pair 0).health ≠ .disabled ∧ o.requestStream.toNat ≤ 16
      ∧ o.completionStream.toNat ≤ 16 ∧ o.expectFetch.toNat ≤ 1 ∧ o.fence.toNat ≤ 1
      ∧ min (max o.tfloor.toNat 1) 1048575 ≤ min (max o.tceil.toNat 1) 1048575 := by decide
/-- Streams 1 and 2 are another pair's, and a Tfloor above Tceil is refused. -/
theorem test_meets_set_pair_range : (board.pair 0).desc.requestStream = some 0
    ∧ ¬ min (max (6 : BitVec 32).toNat 1) 1048575 ≤ min (max (5 : BitVec 32).toNat 1) 1048575 := by decide
/-- Pair 1 in each state that the three commands tell apart, its lists empty. -/
theorem test_meets_pairs : (∀ h ∈ [Health.disabled, .healthy, .failed, .quiesced], EntriesHold (withHealth h board))
    ∧ RangesHold busy ∧ ((withHealth .disabled board).pair 0).desc.requestStream.isSome = true
    ∧ ((withHealth .disabled board).pair 0).desc.completionStream.isSome = true
    ∧ (board.pair 1).desc.requestStream.isSome = false :=
  ⟨by unfold EntriesHold; decide, test_meets_ranges, by decide⟩
theorem test_meets_pair_draining : EntriesHold (withHealth .draining (withLists 9 [entry 7 1] [])) := by unfold EntriesHold; decide
theorem test_meets_set_source : (27 : Byte).toNat = 26 + 1 ∧ (1 : Byte).toNat ≤ 1 ∧ 27 < (28 : Byte).toNat ∧ ¬ (2 : Byte).toNat ≤ 1 := by
  decide

/-- Two pending sources of equal priority for A. -/
def claiming : State :=
  ((board.modSource 4 fun x => { x with pending := true, enable := true, priority := 3 }).modSource 9 fun x =>
    { x with pending := true, enable := true, priority := 3 }).modSource 2 fun x => { x with target := .B }

theorem test_meets_claim : (claiming.source 4).pending = true ∧ (claiming.source 4).enable = true
    ∧ (claiming.source 4).target = .A ∧ claiming.iar.thresholdA < (claiming.source 4).priority
    ∧ (∀ j : SourceIx, (claiming.source j).pending = true → (claiming.source j).priority < (claiming.source 4).priority
        ∨ ((claiming.source j).priority = (claiming.source 4).priority ∧ 4 ≤ j.1)) := by decide
theorem test_meets_claim_none : ∀ i : SourceIx, (board.source i).pending = false := by decide
theorem test_meets_acknowledge : (claiming.source 4).target = .A ∧ (claiming.source 4).pending = true
    ∧ (claiming.source 0).pending = false ∧ (claiming.source 2).target ≠ .A := by decide
theorem test_meets_set_verdict : let o := VerdictSettings.default.operands
    (o.holdoffFactor.toNat = 1 ∨ o.holdoffFactor.toNat = 2 ∨ o.holdoffFactor.toNat = 4) ∧ o.fenceOnLoss.toNat ≤ 1
      ∧ o.alarmDrive.toNat ≤ 1 ∧ (stopped .stopped 1000 false).tap.absence ≥ min o.channelLossLimit.toNat 65535
      ∧ TimeoutsHold board ∧ board.tap.presence = .running := by unfold TimeoutsHold; decide
/-- Loss that stands, with fence-on-loss off and on, and the second in FAULT. -/
theorem test_meets_set_verdict_loss : (stopped .lost 1000 false).vrd.settings.fenceOnLoss = false
    ∧ (stopped .lost 1000 true).vrd.settings.fenceOnLoss = true
    ∧ ({ stopped .lost 1000 true with vrd := { (stopped .lost 1000 true).vrd with verdict := .fault } } : State).vrd.verdict = .fault
    ∧ (stopped .lost 1000 true).tap.presence = .lost := by decide
/-- A STOPPED monitor whose count is below the new limit, and a LOST one whose fence-on-loss stays. -/
theorem test_meets_set_verdict_rests : (stopped .stopped 999 false).tap.presence = .stopped
    ∧ (stopped .stopped 999 false).tap.absence < 1000 ∧ (∀ h, (stopped .stopped 999 false).vrd.verdict ≠ .holdoff h)
    ∧ (stopped .lost 1000 false).tap.presence = .lost
    ∧ VerdictSettings.default.fenceOnLoss = (stopped .lost 1000 false).vrd.settings.fenceOnLoss := by
  refine ⟨by decide, by decide, fun h => ?_, by decide, by decide⟩
  have g : (stopped .stopped 999 false).vrd.verdict = .normal := by decide
  rw [g]; exact fun k => by cases k
/-- A hold-off in HOLDOFF with F the hold-off factor, as every step keeps it: nothing reached, the settle reached, the limit reached. -/
theorem test_meets_set_verdict_holdoff : TimeoutsHold (run (.calmNJudgement false) board)
    ∧ (run (.calmNJudgement false) board).vrd.verdict = .holdoff (holding none)
    ∧ 20000 ≤ ((inVerdict (.holdoff (holding (some 0))) 20000).clock - 0).toNat
    ∧ 300000 ≤ ((inVerdict (.holdoff (holding none)) 300000).clock - 0).toNat := by unfold TimeoutsHold; decide
theorem test_meets_clear_board : (inVerdict .fault 0).vrd.triggers = { pairs := 0, streams := 0, channelLoss := false }
    ∧ ({ (inVerdict .fault 0).vrd.triggers with pairs := 1 } : TriggerSet) ≠ { pairs := 0, streams := 0, channelLoss := false } := by
  decide
theorem test_meets_set_probe : prbSettled board ∧ board.echo.fetchCheck = false ∧ board.echo.prb = .idle
    ∧ (overdue [] true .idle).echo.fetchCheck = true ∧ 1 < (2 : Byte).toNat := by unfold prbSettled; decide
theorem test_meets_set_probe_wait :
    (probing .requesting (some 0x1040) (.requesting (inHand .singleProbe)) (.busy 0x1040)).echo.single = .busy 0x1040
      ∧ currentEntry (probing .requesting (some 0x1040) (.requesting (inHand .singleProbe)) (.busy 0x1040)) = none
      ∧ min (max (200 : BitVec 32).toNat 1) 65535 ≤ ((boardAt 200).clock - (inHand .singleProbe).takenAt).toNat := by decide
/-- A switch to OFF with a limit that the line of a PROBING entry has reached (notes/assumptions/34). -/
theorem test_meets_set_probe_off : let s : State := { starving with echo := { starving.echo with fetchCheck := true } }
    s.echo.fetchCheck = true ∧ s.echo.entries = [] ++ echo 1 0 0 .probing :: [] ∧ s.echo.prb = .requesting (inHand .currentEntry)
      ∧ min (max (200 : BitVec 32).toNat 1) 65535 ≤ (s.clock - (inHand .currentEntry).takenAt).toNat := by decide
theorem test_meets_probe_line : ((2 ^ 36 : Nat) ≤ (0x1000000000 : BitVec 40).toNat) ∧ (0xFFFFFFFFF : BitVec 40).toNat < 2 ^ 36
    ∧ board.echo.single = .idle ∧ board.echo.prb = .idle ∧ board.tap.brstAsserted = false ∧ board.tap.port.phase = .idle
    ∧ board.tap.port.pgnt = false ∧ (run .boardResetAsserted board).tap.brstAsserted = true := by decide
/-- The numbers at the ends of each table, and beyond them. -/
theorem test_meets_reads : [(0 : Byte), 8, 9, 16, 17, 27, 28].map (fun b =>
      ((pairNumbered b.toNat).isSome, (streamOf b.toNat).isSome, (sourceOf b.toNat).isSome))
    = [(false, false, false), (true, true, true), (false, true, true), (false, true, true), (false, false, true),
       (false, false, true), (false, false, false)] := by decide
theorem test_meets_set_time : 9999 < (10000 : BitVec 16).toNat ∧ (9999 : BitVec 16).toNat ≤ 9999 := by decide

end Sys2Proof.Tests
end

/-! ## The channel tap: the tick, the address map, the open rows -/
section

namespace Sys2Proof.Machine

/-! ### TICK_BOUNDARY -/

/-- Settles O7: the model's stamp step and absence count are those of the statement. -/
theorem tickBoundaryAdvances : Obligations.TickBoundaryAdvances := by
  intro live s
  refine ⟨_, ?_, rfl⟩
  have htap : (if ¬ live ∧ s.tap.presence ≠ .running ∧ ¬ s.tap.brstAsserted
        then { s.tap with absence := min (s.tap.absence + 1) 65535 } else s.tap)
      = { s.tap with
          absence := if live = false ∧ s.tap.presence ≠ .running ∧ s.tap.brstAsserted = false then
              min (s.tap.absence + 1) 65535 else s.tap.absence } := by
    simp only [Bool.not_eq_true]; split <;> rfl
  simp only [exec, execTickBoundary, Stamp.next, htap]

/-! ### The address map (R3, Table 2.1) -/

/-- Fields set side by side: the upper one counts in units of the lower one's range. -/
theorem append_toNat {m n : Nat} (x : BitVec m) (y : BitVec n) : (x ++ y).toNat = x.toNat * 2 ^ n + y.toNat := by
  rw [BitVec.toNat_append, ← Nat.shiftLeft_add_eq_or_of_lt y.isLt, Nat.shiftLeft_eq]

theorem extractLsb'_eq_of_toNat {n w : Nat} (start : Nat) {a : BitVec n} {x : BitVec w}
    (h : a.toNat / 2 ^ start % 2 ^ w = x.toNat) : a.extractLsb' start w = x :=
  BitVec.eq_of_toNat_eq (by rw [BitVec.extractLsb'_toNat, Nat.shiftRight_eq_div_pow, h])

/-- The four settings of the AMAP straps. -/
theorem amap_cases (amap : BitVec 2) : amap = 0 ∨ amap = 1 ∨ amap = 2 ∨ amap = 3 := by
  revert amap; decide

/-- The number that the fields of Table 2.1 make in the order of each setting, without the factor 64. -/
def tableNumber (amap : BitVec 2) (b : BankAddr) (row : RowNumber) (line : BitVec 7) : Nat :=
  match amap.toNat with
  | 0 => ((((b.rank.toNat * 2 ^ 17 + row.toNat) * 4 + b.group.toNat) * 4 + b.bank.toNat) * 128 + line.toNat)
  | 1 => ((((b.rank.toNat * 2 ^ 17 + row.toNat) * 4 + b.bank.toNat) * 4 + b.group.toNat) * 128 + line.toNat)
  | 2 => ((((b.rank.toNat * 4 + b.group.toNat) * 4 + b.bank.toNat) * 2 ^ 17 + row.toNat) * 128 + line.toNat)
  | _ => ((((row.toNat * 4 + b.rank.toNat) * 4 + b.group.toNat) * 4 + b.bank.toNat) * 128 + line.toNat)

theorem lineAddress_toNat (amap : BitVec 2) (b : BankAddr) (row : RowNumber) (line : BitVec 7) :
    (lineAddress amap b row line).toNat = 64 * tableNumber amap b row line := by
  obtain rfl | rfl | rfl | rfl := amap_cases amap <;>
    simp only [lineAddress, tableNumber, append_toNat, BitVec.reduceEq, if_true, if_false, BitVec.reduceToNat] <;>
    omega

/-- The way back: each field of the address is a quotient of its number. -/
theorem fields_of_lineAddress (amap : BitVec 2) (b : BankAddr) (row : RowNumber) (line : BitVec 7) :
    bankOfAddress amap (lineAddress amap b row line) = b ∧ rowOfAddress amap (lineAddress amap b row line) = row
      ∧ lineOfAddress (lineAddress amap b row line) = line := by
  have haddr := lineAddress_toNat amap b row line
  obtain ⟨rank, group, bank⟩ := b
  have hrank := rank.isLt
  have hgroup := group.isLt
  have hbank := bank.isLt
  have hrow := row.isLt
  have hline := line.isLt
  obtain rfl | rfl | rfl | rfl := amap_cases amap <;>
    simp only [tableNumber, BitVec.reduceToNat] at haddr <;>
    simp only [bankOfAddress, rowOfAddress, lineOfAddress, BitVec.reduceEq, if_true, if_false, BankAddr.mk.injEq] <;>
    refine ⟨⟨?_, ?_, ?_⟩, ?_, ?_⟩ <;>
    exact extractLsb'_eq_of_toNat _ (by rw [haddr]; omega)

/-- Settles O24. -/
theorem lineAddressMap : Obligations.LineAddressMap := by
  refine ⟨fun amap b row line => ⟨lineAddress_toNat amap b row line, fields_of_lineAddress amap b row line⟩,
    fun column => ?_, by decide⟩
  have := column.isLt
  rw [BitVec.extractLsb'_toNat, Nat.shiftRight_eq_div_pow]
  omega

/-! ### The open-row table (R2) -/

theorem bankIndex_injective {b c : BankAddr} (h : bankIndex b = bankIndex c) : b = c := by
  have hnum : 16 * b.rank.toNat + 4 * b.group.toNat + b.bank.toNat
      = 16 * c.rank.toNat + 4 * c.group.toNat + c.bank.toNat := congrArg Fin.val h
  obtain ⟨br, bg, bb⟩ := b
  obtain ⟨cr, cg, cb⟩ := c
  have := bg.isLt
  have := bb.isLt
  have := cg.isLt
  have := cb.isLt
  simp only [BankAddr.mk.injEq, ← BitVec.toNat_inj]
  dsimp only at hnum
  omega

/-- Any bank after one bank's entry was set. -/
theorem setBank_bank (t : Tap) (b c : BankAddr) (x : BankState) :
    (t.setBank b x).bank c = if c = b then x else t.bank c := by
  simp only [Tap.setBank, Tap.bank, vupd_place]
  exact if_congr ⟨bankIndex_injective, congrArg bankIndex⟩ rfl rfl

theorem setBank_same (t : Tap) (b : BankAddr) (x : BankState) : (t.setBank b x).bank b = x := by
  rw [setBank_bank, if_pos rfl]

theorem setBank_other (t : Tap) {b c : BankAddr} (h : c ≠ b) (x : BankState) : (t.setBank b x).bank c = t.bank c := by
  rw [setBank_bank, if_neg h]

/-- Of the tap only the open-row table has changed. -/
def RowsOnly (t u : Tap) : Prop := u = { t with openRows := u.openRows }

theorem setBank_rowsOnly (t : Tap) (b : BankAddr) (x : BankState) : RowsOnly t (t.setBank b x) := rfl

theorem RowsOnly.trans {t u v : Tap} (h : RowsOnly t u) (k : RowsOnly u v) : RowsOnly t v := by
  unfold RowsOnly at *; rw [k, h]

theorem closeBanks_rowsOnly (l : List BankAddr) (t : Tap) :
    RowsOnly t (l.foldl (fun t b => t.setBank b .closed) t) :=
  foldl_keeps (P := RowsOnly t) (fun u b h => h.trans (setBank_rowsOnly u b .closed)) l rfl

theorem closeBanks_bank (l : List BankAddr) (t : Tap) (c : BankAddr) :
    (l.foldl (fun t b => t.setBank b .closed) t).bank c = if c ∈ l then .closed else t.bank c := by
  induction l generalizing t with
  | nil => rfl
  | cons b l ih =>
    rw [List.foldl_cons, ih, setBank_bank]
    by_cases hl : c ∈ l <;> by_cases hb : c = b <;> simp [hl, hb]

theorem mem_banksOfRank {rank : BitVec 2} {c : BankAddr} : c ∈ banksOfRank rank ↔ c.rank = rank := by
  obtain ⟨r, g, b⟩ := c
  have hall : ∀ x : BitVec 2, x ∈ ([0, 1, 2, 3] : List (BitVec 2)) := by decide
  simp only [banksOfRank, List.mem_flatMap, List.mem_map, BankAddr.mk.injEq]
  exact ⟨fun ⟨_, _, _, _, h, _, _⟩ => h.symm, fun h => ⟨g, hall g, b, hall b, h.symm, rfl, rfl⟩⟩

/-- The commands that open and close rows write the open-row table alone (R2, R12). -/
theorem modTap_rowsOnly {s : State} {f : Tap → Tap} (h : RowsOnly s.tap (f s.tap)) :
    s.modTap f = { s with tap := { s.tap with openRows := (s.modTap f).tap.openRows } } := by
  show { s with tap := f s.tap } = _
  rw [modTap_tap, ← h]

/-! ### Column commands (R2, R9) -/

/-- The burst of a column command to an OPEN bank joins those in flight (R2). -/
def Tap.launch (op : ColumnOp) (burst : InFlight) (t : Tap) : Tap :=
  match op with
  | .write => { t with writesInFlight := t.writesInFlight ++ [burst] }
  | .read => { t with readsInFlight := t.readsInFlight ++ [burst] }

/-- What a column command does to the tap before its auto-precharge. -/
def columnTap (amap : BitVec 2) (b : BankAddr) (column : BitVec 10) (op : ColumnOp) (length : BurstLength) (t : Tap) :
    Tap :=
  match t.bank b with
  | .closed => if t.brstAsserted then t else { t with unobservedCount := satInc t.unobservedCount }
  | .openRow row => t.launch op { line := lineAddress amap b row (column.extractLsb' 3 7), length := length }

/-- The tap after a column command. -/
def columnResult (amap : BitVec 2) (b : BankAddr) (column : BitVec 10) (op : ColumnOp) (length : BurstLength)
    (auto : Bool) (t : Tap) : Tap :=
  if auto then (columnTap amap b column op length t).setBank b .closed else columnTap amap b column op length t

theorem columnTap_closed {amap : BitVec 2} {b : BankAddr} {column : BitVec 10} {op : ColumnOp} {length : BurstLength}
    {t : Tap} (h : t.bank b = .closed) : columnTap amap b column op length t
      = if t.brstAsserted then t else { t with unobservedCount := satInc t.unobservedCount } := by
  simp only [columnTap, h]

theorem columnTap_openRow {amap : BitVec 2} {b : BankAddr} {column : BitVec 10} {op : ColumnOp} {length : BurstLength}
    {t : Tap} {row : RowNumber} (h : t.bank b = .openRow row) : columnTap amap b column op length t
      = t.launch op { line := lineAddress amap b row (column.extractLsb' 3 7), length := length } := by
  simp only [columnTap, h]

theorem exec_columnCommand (b : BankAddr) (column : BitVec 10) (op : ColumnOp) (length : BurstLength) (auto : Bool)
    (s : State) : exec (.columnCommand b column op length auto) s
      = .next { s with tap := columnResult s.straps.amap b column op length auto s.tap } := by
  simp only [exec, execColumnCommand, columnResult]
  cases h : s.tap.bank b with
  | closed =>
    rw [columnTap_closed h]
    by_cases hb : s.tap.brstAsserted = true
    · rw [if_pos hb]; cases auto <;> simp only [if_pos hb] <;> rfl
    · rw [if_neg hb]; cases auto <;> simp only [if_neg hb] <;> rfl
  | openRow row => rw [columnTap_openRow h]; cases auto <;> cases op <;> rfl

/-- The parts of the tap that a column command may write. -/
def ColumnOnly (t u : Tap) : Prop :=
  u = { t with
    openRows := u.openRows, writesInFlight := u.writesInFlight, readsInFlight := u.readsInFlight
    unobservedCount := u.unobservedCount }

theorem columnTap_only (amap : BitVec 2) (b : BankAddr) (column : BitVec 10) (op : ColumnOp) (length : BurstLength)
    (t : Tap) : ColumnOnly t (columnTap amap b column op length t) := by
  unfold columnTap
  split
  · split <;> rfl
  · cases op <;> rfl

theorem columnTap_bank (amap : BitVec 2) (b c : BankAddr) (column : BitVec 10) (op : ColumnOp) (length : BurstLength)
    (t : Tap) : (columnTap amap b column op length t).bank c = t.bank c := by
  unfold columnTap
  split
  · split <;> rfl
  · cases op <;> rfl

theorem columnResult_only (amap : BitVec 2) (b : BankAddr) (column : BitVec 10) (op : ColumnOp) (length : BurstLength)
    (auto : Bool) (t : Tap) : ColumnOnly t (columnResult amap b column op length auto t) := by
  have h := columnTap_only amap b column op length t
  unfold columnResult; split
  · unfold ColumnOnly at *; rw [setBank_rowsOnly (columnTap ..) b .closed, h]
  · exact h

theorem columnResult_bank (amap : BitVec 2) (b c : BankAddr) (column : BitVec 10) (op : ColumnOp) (length : BurstLength)
    (auto : Bool) (t : Tap) : (columnResult amap b column op length auto t).bank c
      = if c = b ∧ auto = true then .closed else t.bank c := by
  unfold columnResult
  cases auto <;> simp [setBank_bank, columnTap_bank]

/-- The auto-precharge leaves the bursts and the counts (R2). -/
theorem columnResult_kept (amap : BitVec 2) (b : BankAddr) (column : BitVec 10) (op : ColumnOp) (length : BurstLength)
    (auto : Bool) (t : Tap) :
    (columnResult amap b column op length auto t).writesInFlight = (columnTap amap b column op length t).writesInFlight
    ∧ (columnResult amap b column op length auto t).readsInFlight = (columnTap amap b column op length t).readsInFlight
    ∧ (columnResult amap b column op length auto t).unobservedCount
      = (columnTap amap b column op length t).unobservedCount := by
  unfold columnResult
  cases auto <;> exact ⟨rfl, rfl, rfl⟩

/-- Settles O25: the row commands through `setBank_bank`, the column command through the tap that it leaves. -/
theorem commandsFollowTheOpenRows : Obligations.CommandsFollowTheOpenRows := by
  refine ⟨fun b row rank s => ⟨⟨_, rfl, rfl, setBank_same _ _ _, fun c hc => setBank_other _ hc _⟩,
    ⟨_, rfl, rfl, setBank_same _ _ _, fun c hc => setBank_other _ hc _⟩,
    ⟨_, rfl, modTap_rowsOnly (closeBanks_rowsOnly _ _), fun c => ?_⟩⟩, fun b column op length auto s => ?_⟩
  · rw [modTap_tap, closeBanks_bank]
    exact if_congr mem_banksOfRank rfl rfl
  · obtain ⟨hw, hr, hu⟩ := columnResult_kept s.straps.amap b column op length auto s.tap
    refine ⟨_, exec_columnCommand b column op length auto s,
      congrArg (fun t : Tap => { s with tap := t }) (columnResult_only s.straps.amap b column op length auto s.tap),
      fun c => columnResult_bank .., ?_⟩
    simp only [hw, hr, hu]
    cases h : s.tap.bank b with
    | closed => rw [columnTap_closed h]; cases s.tap.brstAsserted <;> simp
    | openRow row => rw [columnTap_openRow h]; cases op <;> simp [Tap.launch]

end Sys2Proof.Machine
end

/-! ## Bursts: their classification, those that no block takes, and reads of request slots -/
section

namespace Sys2Proof.Machine

/-! ### The classification of a line (R6, R7) -/

theorem mem_enabledWindows {s : State} {w : Window} :
    w ∈ enabledWindows s ↔ ∃ n, (s.stream n).enabled = true ∧ windowOf n (s.stream n).desc = w := by
  simp [enabledWindows, mem_allStreams]

/-- A line outside the windows of the enabled streams is classified OUTSIDE. -/
theorem classifyLine_outside {s : State} {a : LineAddr} (hl : LookupHolds s) (ho : OutsideWindows s a) :
    classifyLine s.tap.lookup a = none := by
  simp only [classifyLine, Option.map_eq_none_iff, List.find?_eq_none, Window.covers, decide_eq_true_eq]
  rw [hl.1]
  intro w hw
  obtain ⟨n, hn, rfl⟩ := mem_enabledWindows.mp hw
  exact ho n hn

/-- Of the windows in the lookup at most one covers a line (R18). -/
theorem covering_window_unique {s : State} (hl : LookupHolds s) {n m : StreamIx} {a : LineAddr}
    (hn : (s.stream n).enabled = true) (hm : (s.stream m).enabled = true)
    (cn : (windowOf n (s.stream n).desc).covers a = true) (cm : (windowOf m (s.stream m).desc).covers a = true) :
    m = n := by
  by_contra hne
  have hmeets := hl.2 n m (Ne.symm hne) hn hm
  simp only [Window.meets, Window.covers, decide_eq_false_iff_not, decide_eq_true_eq] at hmeets cn cm
  omega

/-- The place that an offset into a window names. -/
theorem place_of_offset {lines slot : Nat} {line : Fin 8} (h : line.1 < lines) :
    (slot * (64 * lines) + 64 * line.1) / (64 * lines) = slot
      ∧ (slot * (64 * lines) + 64 * line.1) % (64 * lines) / 64 = line.1 := by
  have hlt : 64 * line.1 < 64 * lines := by omega
  have hpos : 0 < 64 * lines := by omega
  constructor
  · rw [Nat.mul_comm, Nat.mul_add_div hpos, Nat.div_eq_of_lt hlt, Nat.add_zero]
  · rw [Nat.mul_comm slot, Nat.mul_add_mod, Nat.mod_eq_of_lt hlt]; omega

/-- A line of a slot of an enabled stream is classified to that stream, slot and line. -/
theorem classifyLine_inside {s : State} {a : LineAddr} {n : StreamIx} {slot : Nat} {line : Fin 8} (hl : LookupHolds s)
    (hn : (s.stream n).enabled = true) (hslot : slot < (s.stream n).desc.slotCount)
    (hline : line.1 < (s.stream n).desc.slotSize.lines)
    (ha : a.toNat = (s.stream n).desc.base + slot * (s.stream n).desc.slotSize.bytes + 64 * line.1) :
    classifyLine s.tap.lookup a = some { stream := n, slot := slot, line := line } := by
  obtain ⟨hq, hr⟩ := place_of_offset (slot := slot) hline
  have hcover : (windowOf n (s.stream n).desc).covers a = true := by
    have := Nat.mul_le_mul_right (s.stream n).desc.slotSize.bytes hslot
    rw [Nat.succ_mul] at this
    have hbytes : (s.stream n).desc.slotSize.bytes = 64 * (s.stream n).desc.slotSize.lines := rfl
    rw [Window.covers, decide_eq_true_eq]
    simp only [Window.limit, windowOf, ha]
    omega
  have hfind : s.tap.lookup.find? (fun w => w.covers a) = some (windowOf n (s.stream n).desc) := by
    have hmem : windowOf n (s.stream n).desc ∈ s.tap.lookup := by
      rw [hl.1]; exact mem_enabledWindows.mpr ⟨n, hn, rfl⟩
    obtain ⟨w, hw⟩ := Option.isSome_iff_exists.mp
      (List.find?_isSome (p := fun w : Window => w.covers a) |>.mpr ⟨_, hmem, hcover⟩)
    have hin := List.mem_of_find?_eq_some hw
    rw [hl.1] at hin
    obtain ⟨m, hm, rfl⟩ := mem_enabledWindows.mp hin
    obtain rfl := covering_window_unique hl hn hm hcover
      (List.find?_some (p := fun w : Window => w.covers a) hw)
    exact hw
  have hoff : a.toNat - (s.stream n).desc.base = slot * (64 * (s.stream n).desc.slotSize.lines) + 64 * line.1 := by
    rw [ha, SlotSize.bytes]; omega
  simp only [classifyLine, hfind, Option.map_some, windowOf, hoff, SlotSize.bytes, hq, hr]
  simp [Fin.ofNat, Nat.mod_eq_of_lt line.2]

/-! ### When the PRB stays settled (R119) -/

/-- Whether the PRB has a line to take depends on the echo part and on BRST_N alone. -/
theorem prbSettled_congr {s t : State} (he : t.echo = s.echo) (hb : t.tap.brstAsserted = s.tap.brstAsserted)
    (h : prbSettled s) : prbSettled t := by
  simpa only [prbSettled, currentEntry, he, hb] using h

/-- A settled PRB takes nothing after a change that leaves the echo part and BRST_N as they were. -/
theorem prbTake_kept {s t : State} (h : prbSettled s) (he : t.echo = s.echo)
    (hb : t.tap.brstAsserted = s.tap.brstAsserted) : prbTake t = t :=
  prbTake_settled t (prbSettled_congr he hb h)

/-! ### The data of a burst completes (R4, R5, R12) -/

theorem not_presents {s : State} {dur : Bool} (h : s.tap.brstAsserted = true ∨ dur = true) :
    presents s dur = false := by
  rcases h with h | h <;> simp [presents, h]

theorem presents_released {s : State} (h : s.tap.brstAsserted = false) : presents s false = true := by
  simp [presents, h]

/-- The void mark as the statements give it (R14). -/
theorem voidedBy_eq (a : LineAddr) (x : ProbePort) : x.voidedBy a
    = { x with voidMark := x.voidMark || (decide (x.phase = .reading) && decide (x.line = some a)) } := by
  unfold ProbePort.voidedBy
  split
  · next h => simp [h]
  · next h => rw [← Bool.decide_and, decide_eq_false h, Bool.or_false]

/-- The state once the write `b` at a place has left those in flight, with the void mark that it sets (R14). -/
def writeTaken (which : Nat) (b : InFlight) (s : State) : State :=
  s.modTap fun t => { t with writesInFlight := t.writesInFlight.eraseIdx which, port := t.port.voidedBy b.line }

/-- The state once the read at a place has left those in flight. -/
def readTaken (which : Nat) (s : State) : State :=
  s.modTap fun t => { t with readsInFlight := t.readsInFlight.eraseIdx which }

section
variable {s : State} {which : Nat} {b : InFlight} {data : LineData} {mask : ByteMask} {dur : Bool}

theorem exec_write_unpresented (hw : s.tap.writesInFlight[which]? = some b)
    (h : s.tap.brstAsserted = true ∨ dur = true) :
    exec (.writeDataComplete which data mask dur) s = .next (writeTaken which b s) := by
  simp [exec, execWriteDataComplete, hw, not_presents h, writeTaken]

theorem exec_write_presented (hw : s.tap.writesInFlight[which]? = some b) (h : s.tap.brstAsserted = false) :
    exec (.writeDataComplete which data mask false) s
      = .next (prbTake (presentWrite b.line data (mask &&& sentBytes b.length) (writeTaken which b s))) := by
  have hsent : transferred b.length = sentBytes b.length := by cases b.length <;> rfl
  simp [exec, execWriteDataComplete, hw, presents_released h, writeTaken, hsent]

theorem exec_read_unpresented (hr : s.tap.readsInFlight[which]? = some b)
    (h : s.tap.brstAsserted = true ∨ dur = true) :
    exec (.readDataComplete which data dur) s = .next (readTaken which s) := by
  simp [exec, execReadDataComplete, hr, not_presents h, readTaken]

theorem exec_read_chopped (hr : s.tap.readsInFlight[which]? = some b) (h : s.tap.brstAsserted = false)
    (hlen : b.length ≠ .full) :
    exec (.readDataComplete which data false) s = .next (countUnobserved (readTaken which s)) := by
  simp [exec, execReadDataComplete, hr, presents_released h, readTaken, hlen]

theorem exec_read_presented (hr : s.tap.readsInFlight[which]? = some b) (h : s.tap.brstAsserted = false)
    (hlen : b.length = .full) :
    exec (.readDataComplete which data false) s = .next (prbTake (presentRead b.line data (readTaken which s))) := by
  simp [exec, execReadDataComplete, hr, presents_released h, readTaken, hlen]

end

/-- A write burst that is OUTSIDE is counted, in its own count and in outside, and reaches no block (R7, R9). -/
theorem presentWrite_outside {s : State} {a : LineAddr} (data : LineData) (mask : ByteMask)
    (h : classifyLine s.tap.lookup a = none) : presentWrite a data mask s
      = s.modTap fun t => { t with writeCount := t.writeCount + 1, outsideCount := t.outsideCount + 1 } := by
  simp [presentWrite, h, countOutside, State.modTap]

/-- A read burst that is OUTSIDE is counted, in its own count and in outside, and reaches no block (R7, R9). -/
theorem presentRead_outside {s : State} {a : LineAddr} (data : LineData) (h : classifyLine s.tap.lookup a = none) :
    presentRead a data s
      = s.modTap fun t => { t with readCount := t.readCount + 1, outsideCount := t.outsideCount + 1 } := by
  simp [presentRead, h, countOutside, State.modTap]

/-- Settles O26: each case is the equation of its burst above, and a settled PRB takes nothing. -/
theorem burstsHandedToNoBlock : Obligations.BurstsHandedToNoBlock := by
  intro which data mask dur b s
  refine ⟨fun hw => ⟨fun h => ?_, ?_⟩, fun hr => ⟨fun h => exec_read_unpresented hr h, ?_, ?_⟩⟩
  · rw [exec_write_unpresented hw h, writeTaken, State.modTap, voidedBy_eq]
  · rintro hb rfl hl ho hs
    rw [exec_write_presented hw hb, presentWrite_outside (s := writeTaken which b s) _ _ (classifyLine_outside hl ho),
      prbTake_kept hs, writeTaken, State.modTap, State.modTap, voidedBy_eq] <;> rfl
  · rintro hb rfl hlen
    exact exec_read_chopped hr hb hlen
  · rintro hb rfl hlen hl ho hs
    rw [exec_read_presented hr hb hlen, presentRead_outside (s := readTaken which s) _ (classifyLine_outside hl ho),
      prbTake_kept hs] <;> rfl

/-! ### Reads of slots (Table 2.2) -/

/-- A presented read, counted. -/
def readCounted (which : Nat) (s : State) : State :=
  { s with tap := { s.tap with
      readsInFlight := s.tap.readsInFlight.eraseIdx which, readCount := s.tap.readCount + 1 } }

/-- What the block that takes a whole read of a slot does with it (Table 2.2). -/
def readHanded (n : StreamIx) (slot : Nat) (line : Fin 8) (data : LineData) (s : State) : State :=
  match (s.stream n).desc.role with
  | .request => if line = 0 then pickup n slot s else s
  | .completion => lineRead { stream := n, slot := slot } line.1 data s
  | .pulse => s

theorem exec_wholeRead {s : State} {which : Nat} {n : StreamIx} {slot : Nat} {line : Fin 8} (data : LineData)
    (hl : LookupHolds s) (h : WholeReadOf s which n slot line) :
    exec (.readDataComplete which data false) s
      = .next (prbTake (readHanded n slot line data (readCounted which s))) := by
  obtain ⟨b, hr, hlen, hb, hn, hslot, hline, ha⟩ := h
  have hc : classifyLine (readTaken which s).tap.lookup b.line = some { stream := n, slot := slot, line := line } :=
    classifyLine_inside hl hn hslot hline ha
  rw [exec_read_presented hr hb hlen]
  simp only [presentRead, hc]
  rfl

/-! ### Pickup (R61) -/

theorem pickupLast_none {slot : Nat} (now : Clock) {l : List Entry} (h : ∀ e ∈ l, e.slot ≠ slot) :
    pickupLast slot now l = l := by
  induction l with
  | nil => rfl
  | cons e l ih =>
    have hhead : ¬ (e.slot = slot ∧ l.all (fun f => decide (f.slot ≠ slot)) = true) :=
      fun k => h e (List.mem_cons_self ..) k.1
    rw [pickupLast, if_neg hhead, ih fun f hf => h f (List.mem_cons_of_mem _ hf)]

/-- The entry of the slot nearest the tail takes the pickup, if it has none. -/
theorem pickupLast_last {slot : Nat} (now : Clock) (before : List Entry) {e : Entry} {after : List Entry}
    (he : e.slot = slot) (hafter : ∀ f ∈ after, f.slot ≠ slot) :
    pickupLast slot now (before ++ e :: after)
      = before ++ { e with pickup := some (e.pickup.getD now) } :: after := by
  induction before with
  | nil =>
    have hall : after.all (fun f => decide (f.slot ≠ slot)) = true := by simpa using hafter
    rw [List.nil_append, pickupLast, if_pos ⟨he, hall⟩]
    rfl
  | cons f before ih =>
    have hnot : ¬ (f.slot = slot ∧ (before ++ e :: after).all (fun f => decide (f.slot ≠ slot)) = true) := by
      rintro ⟨-, k⟩
      exact absurd he (by simpa using List.all_eq_true.mp k e (by simp))
    rw [List.cons_append, pickupLast, if_neg hnot, ih]
    rfl

/-- A pickup for an active pair writes its open list alone. -/
theorem pickup_active {s : State} {n : StreamIx} {p : PairIx} (slot : Nat) (hp : s.pairOf n = some p)
    (ha : (s.pair p).health.active = true) :
    pickup n slot s = s.modPair p fun q => { q with openList := pickupLast slot s.clock q.openList } := by
  simp [pickup, hp, ha]

theorem pickup_inactive {s : State} {n : StreamIx} (slot : Nat)
    (h : ∀ p, s.pairOf n = some p → (s.pair p).health = .disabled) : pickup n slot s = s := by
  unfold pickup
  split
  · rfl
  · next p hp => rw [h p hp]; rfl

/-- The pair's open list after a read of a line of a slot of its REQUEST stream. -/
def pickedUp (slot : Nat) (line : Fin 8) (now : Clock) (l : List Entry) : List Entry :=
  if line = 0 then pickupLast slot now l else l

theorem modPair_unchanged (s : State) (p : PairIx) {f : Pair → Pair} (h : f (s.pair p) = s.pair p) :
    s.modPair p f = s := by
  have hv : vupd s.pairs p f = s.pairs := by
    simp only [vupd]
    exact (congrArg (s.pairs.set p.1 · p.2) h).trans (Vector.set_getElem_self p.2)
  rw [State.modPair, hv]

theorem readHanded_request {s : State} {n : StreamIx} {p : PairIx} (slot : Nat) (line : Fin 8) (data : LineData)
    (hrole : (s.stream n).desc.role = .request) (hp : s.pairOf n = some p) (ha : (s.pair p).health.active = true) :
    readHanded n slot line data s
      = s.modPair p fun q => { q with openList := pickedUp slot line s.clock q.openList } := by
  simp only [readHanded, hrole, pickedUp]
  split
  · exact pickup_active slot hp ha
  · exact (modPair_unchanged s p rfl).symm

/-- Settles O33: the pickup of an active pair, and the reads that find no pair to serve. -/
theorem readOfARequestSlot : Obligations.ReadOfARequestSlot := by
  refine ⟨fun which n slot line data p s hl hread hs hrole hp ha => ?_,
    fun which n slot line data s hl hread hs hrole => ?_⟩
  · refine ⟨_, exec_wholeRead data hl hread, ?_⟩
    rw [readHanded_request (s := readCounted which s) slot line data hrole hp ha,
      prbTake_kept (t := (readCounted which s).modPair p _) hs rfl rfl]
    refine ⟨rfl, fun r h => modPair_other _ h _, by rw [modPair_same]; rfl, fun h => ?_, ?_⟩
    · have hlist : pickedUp slot line s.clock (s.pair p).openList = (s.pair p).openList := by
        unfold pickedUp
        split
        · next h0 => exact pickupLast_none _ (h.resolve_left fun k => k (congrArg Fin.val h0))
        · rfl
      rw [modPair_same]
      exact congrArg (fun l => { s.pair p with openList := l }) hlist
    · intro before after e h0 hopen he hafter
      have hlist : pickedUp slot line s.clock (s.pair p).openList
          = before ++ { e with pickup := some (e.pickup.getD s.clock) } :: after := by
        rw [pickedUp, if_pos (Fin.ext h0), hopen, pickupLast_last _ _ he hafter]
      rw [modPair_same]
      refine hlist.trans ?_
      cases e.pickup <;> rfl
  · have hnone : readHanded n slot line data (readCounted which s) = readCounted which s := by
      rcases hrole with hrole | ⟨hrole, hp⟩
      · simp [readHanded, show ((readCounted which s).stream n).desc.role = .pulse from hrole]
      · simp [readHanded, show ((readCounted which s).stream n).desc.role = .request from hrole,
          pickup_inactive (s := readCounted which s) slot hp]
    rw [exec_wholeRead data hl hread, hnone, prbTake_kept hs] <;> rfl

end Sys2Proof.Machine
end

/-! ## The echo list: its entries, their retirement, and reads of watched lines -/
section

namespace Sys2Proof.Machine

/-! ### An entry in its place -/

/-- The first of a list that satisfies a test. -/
theorem find?_first {α : Type} {t : α → Bool} {before : List α} {e : α} (after : List α)
    (hb : ∀ f ∈ before, t f = false) (he : t e = true) : (before ++ e :: after).find? t = some e := by
  have hnone : before.find? t = none := List.find?_eq_none.mpr fun f hf => by simp [hb f hf]
  rw [List.find?_append, hnone, Option.none_or, List.find?_cons_of_pos he]

theorem modFirst_first {α : Type} {t : α → Bool} (g : α → α) {before : List α} {e : α} (after : List α)
    (hb : ∀ f ∈ before, t f = false) (he : t e = true) :
    modFirst t g (before ++ e :: after) = before ++ g e :: after := by
  induction before with
  | nil => simp [modFirst, he]
  | cons f before ih =>
    simp [modFirst, hb f (List.mem_cons_self ..), ih fun x hx => hb x (List.mem_cons_of_mem _ hx)]

/-- No entry of a list has both the slot and the probe status of this one. -/
def Apart (e : EchoEntry) (before : List EchoEntry) : Prop :=
  ∀ f ∈ before, f.key ≠ e.key ∨ f.status ≠ e.status

theorem Apart.not_mem {e : EchoEntry} {before : List EchoEntry} (h : Apart e before) : e ∉ before :=
  fun hm => (h e hm).elim (fun k => k rfl) (fun k => k rfl)

theorem erase_first {e : EchoEntry} {before : List EchoEntry} (after : List EchoEntry) (h : Apart e before) :
    (before ++ e :: after).erase e = before ++ after := by
  rw [List.erase_append_right _ h.not_mem, List.erase_cons_head]

theorem modEntry_first {s : State} {e : EchoEntry} {before after : List EchoEntry} (f : EchoEntry → EchoEntry)
    (hs : s.echo.entries = before ++ e :: after) (h : Apart e before) :
    modEntry e f s = { s with echo := { s.echo with entries := before ++ f e :: after } } := by
  have hb : ∀ y ∈ before, decide (y = e) = false := fun y hy =>
    decide_eq_false fun k => h.not_mem (k ▸ hy)
  rw [modEntry, State.modEcho, hs, modFirst_first f after hb (by simp)]

theorem currentEntry_none {s : State} : currentEntry s = none ↔ ∀ e ∈ s.echo.entries, e.status ≠ .probing := by
  simp [currentEntry]

theorem currentEntry_first {s : State} {e : EchoEntry} {before after : List EchoEntry}
    (hs : s.echo.entries = before ++ e :: after) (he : e.status = .probing)
    (hb : ∀ f ∈ before, f.status ≠ .probing) : currentEntry s = some e := by
  rw [currentEntry, hs]
  exact find?_first after (fun f hf => decide_eq_false (hb f hf)) (decide_eq_true he)

theorem findEcho_first {s : State} {e : EchoEntry} {before after : List EchoEntry}
    (hs : s.echo.entries = before ++ e :: after) (hb : ∀ f ∈ before, f.key ≠ e.key) :
    findEcho e.key s = some e := by
  rw [findEcho, hs]
  exact find?_first after (fun f hf => decide_eq_false (hb f hf)) (decide_eq_true rfl)

theorem findEcho_none {s : State} {k : SlotKey} : findEcho k s = none ↔ ∀ e ∈ s.echo.entries, e.key ≠ k := by
  simp [findEcho]

theorem key_eq {e : EchoEntry} {n : StreamIx} {slot : Nat} :
    e.key = { stream := n, slot := slot } ↔ e.stream = n ∧ e.slot = slot := by
  simp [EchoEntry.key]

/-! ### Retirement (R108, R116, R122) -/

/-- The state once an entry has been retired from among `rest`: it leaves the probe queue, and a line in hand for it is
given up. -/
def afterRetire (e : EchoEntry) (rest : List EchoEntry) (s : State) : State :=
  { s with tap := { s.tap with port := withdrawn e s.echo.prb s.tap.port }, echo := retired e rest s.echo }

theorem withdraw_eq (x : ProbePort) : x.withdraw
    = if x.line.isSome ∧ x.phase ≠ .reading then { x with phase := .releasing, line := none } else x := rfl

/-- An entry that has no line in hand has none to give up. -/
theorem line_kept {s : State} {e : EchoEntry} (h : e.status = .probing → linePurpose s ≠ some .currentEntry) :
    givenUp e s.echo.prb = s.echo.prb ∧ withdrawn e s.echo.prb s.tap.port = s.tap.port := by
  unfold linePurpose at h
  cases hprb : s.echo.prb with
  | idle => exact ⟨rfl, rfl⟩
  | requesting l =>
    have hno : ¬ (e.status = .probing ∧ l.purpose = .currentEntry) := fun k => h k.1 (by rw [hprb, ← k.2])
    exact ⟨if_neg hno, if_neg fun k => hno ⟨k.1, k.2.1⟩⟩
  | reading l =>
    have hno : ¬ (e.status = .probing ∧ l.purpose = .currentEntry) := fun k => h k.1 (by rw [hprb, ← k.2])
    exact ⟨if_neg hno, rfl⟩

/-- The PRB gives up the line of a current entry that was PROBING, and no other line (R122). -/
theorem giveUpIf_currentEntry {e : EchoEntry} (s : State) (he : e.status = .probing) :
    giveUpIf .currentEntry s = { s with
      tap := { s.tap with port := withdrawn e s.echo.prb s.tap.port }
      echo := { s.echo with prb := givenUp e s.echo.prb } } := by
  unfold giveUpIf
  split
  · next hp =>
    unfold linePurpose at hp
    unfold giveUpLine
    cases hprb : s.echo.prb with
    | idle => simp [hprb] at hp
    | requesting l =>
      have hl : l.purpose = .currentEntry := by simpa [hprb] using hp
      simp [withdrawn, givenUp, he, hl, withdraw_eq, State.modPort, State.modTap, State.modEcho]
    | reading l =>
      have hl : l.purpose = .currentEntry := by simpa [hprb] using hp
      simp [withdrawn, givenUp, he, hl, State.modEcho]
  · next hp =>
    obtain ⟨hprb, hport⟩ := line_kept (e := e) fun _ => hp
    rw [hprb, hport]

theorem retireEntry_eq {s : State} {e : EchoEntry} {before after : List EchoEntry}
    (hs : s.echo.entries = before ++ e :: after) (h : Apart e before) :
    retireEntry e s = afterRetire e (before ++ after) s := by
  unfold retireEntry
  dsimp only
  split
  · next he =>
    rw [giveUpIf_currentEntry _ he, modEcho_echo, modEcho_tap, hs, erase_first after h]
    rfl
  · next he =>
    obtain ⟨hprb, hport⟩ := line_kept (s := s) fun k => absurd k he
    rw [afterRetire, retired, hprb, hport, State.modEcho, hs, erase_first after h]
    rfl

/-- With an entry retired the PRB of a settled part has still nothing to take (R119). -/
theorem afterRetire_settled {s t : State} {e : EchoEntry} {before after : List EchoEntry} {c : EchoCounters}
    (hs : s.echo.entries = before ++ e :: after) (hset : prbSettled s) (hrest : PrbRests e (before ++ after) s)
    (he : t.echo = { retired e (before ++ after) s.echo with counters := c })
    (hb : t.tap.brstAsserted = s.tap.brstAsserted) : prbSettled t := by
  have hsingle : t.echo.single = s.echo.single := by rw [he]; rfl
  have hentries : t.echo.entries = before ++ after := by rw [he]; rfl
  have hqueue : s.echo.probeQueue = [] → t.echo.probeQueue = [] := by
    intro hq; rw [he]; simp only [retired, hq]; split <;> rfl
  have hprb : t.echo.prb = givenUp e s.echo.prb := by rw [he]; rfl
  by_cases hp : e.status = .probing
  · obtain ⟨h1, h2, h3⟩ := hrest hp
    exact .inr (.inr ⟨hsingle ▸ h1, currentEntry_none.mpr (hentries ▸ h3), hqueue h2⟩)
  · rcases hset with h | h | ⟨h1, h2, h3⟩
    · exact .inl (by rwa [hprb, (line_kept (s := s) fun k => absurd k hp).1])
    · exact .inr (.inl (hb ▸ h))
    · refine .inr (.inr ⟨hsingle ▸ h1, currentEntry_none.mpr fun f hf => currentEntry_none.mp h2 f ?_, hqueue h3⟩)
      rw [hentries] at hf
      rw [hs]
      exact (List.sublist_cons_self e after).append_left before |>.mem hf

/-! ### Findings (R113) -/

/-- A finding of the ECH against a pair (R113): the cause posted, and an adverse event in an enabled pair's window. -/
def Found (p : PairIx) (c : Cause) (s t : State) : Prop :=
  Posted (pairSource p) c s t ∧ OtherPairs p s t
    ∧ t.pair p = { s.pair p with hev := { (s.pair p).hev with
        window := if (s.pair p).health.enabled then
            (s.pair p).hev.window.map fun w => if w.held then w else { w with adverse := satInc w.adverse }
          else (s.pair p).hev.window } }

/-- Whether a source took a posting depends on the source and the stamp clock alone. -/
theorem PostedAt.congr {i : SourceIx} {c : Cause} {s t s' t' : State} (h : PostedAt i c s t)
    (hs : s'.source i = s.source i) (ht : t'.source i = t.source i) (hstamp : s'.stamp = s.stamp) :
    PostedAt i c s' t' := by
  unfold PostedAt at *
  rwa [hs, ht, hstamp]

theorem adverseEvent_pair (p : PairIx) (s : State) :
    (adverseEvent p s).pair p = { s.pair p with hev := { (s.pair p).hev with
      window := if (s.pair p).health.enabled then
          (s.pair p).hev.window.map fun w => if w.held then w else { w with adverse := satInc w.adverse }
        else (s.pair p).hev.window } } := by
  unfold adverseEvent
  split
  · rw [modPair_same]; rfl
  · rfl

theorem echoFinding_found (p : PairIx) (c : Cause) (s : State) : Found p c s (echoFinding p c s) := by
  have hevent := adverseEvent_windowOnly (post (pairSource p) c s) p
  have hiar : (echoFinding p c s).iar = (post (pairSource p) c s).iar := by
    rw [echoFinding, hevent.frame]
  have hposted := post_posted s (pairSource p) c
  refine ⟨?_, (echoFinding_finding s p c).others, adverseEvent_pair p (post (pairSource p) c s)⟩
  simpa only [Posted, PostedAt, OtherSources, State.source, hiar] using hposted

theorem echoFinding_frame (p : PairIx) (c : Cause) (s : State) :
    echoFinding p c s = { s with iar := (echoFinding p c s).iar, pairs := (echoFinding p c s).pairs } := by
  have h := (echoFinding_finding s p c).frame
  unfold PairsAndSources at h
  rw [h]

@[simp] theorem echoFinding_echo (p : PairIx) (c : Cause) (s : State) : (echoFinding p c s).echo = s.echo := by
  rw [echoFinding_frame]

@[simp] theorem echoFinding_tap (p : PairIx) (c : Cause) (s : State) : (echoFinding p c s).tap = s.tap := by
  rw [echoFinding_frame]

/-! ### A line of an entry is read (R111, R112) -/

/-- The state with the entry between `before` and `after` changed to `e`. -/
def withEntry (before : List EchoEntry) (e : EchoEntry) (after : List EchoEntry) (s : State) : State :=
  { s with echo := { s.echo with entries := before ++ e :: after } }

/-- The state with an entry retired and its outcome counted. -/
def retiredAs (f : EchoCounters → EchoCounters) (e : EchoEntry) (rest : List EchoEntry) (s : State) : State :=
  { s with
    tap := { s.tap with port := withdrawn e s.echo.prb s.tap.port }
    echo := { retired e rest s.echo with counters := f s.echo.counters } }

theorem countEcho_retire {s : State} {e : EchoEntry} {before after : List EchoEntry} (f : EchoCounters → EchoCounters)
    (hs : s.echo.entries = before ++ e :: after) (h : Apart e before) :
    countEcho f (retireEntry e s) = retiredAs f e (before ++ after) s := by
  rw [retireEntry_eq hs h]; rfl

def EchoCounters.addConfirmed (c : EchoCounters) : EchoCounters := { c with confirmed := satInc c.confirmed }

def EchoCounters.addMismatched (c : EchoCounters) : EchoCounters := { c with mismatched := satInc c.mismatched }

section
variable {s : State} {e : EchoEntry} {before after : List EchoEntry} {i : Nat} {d : LineData}

/-- A line that the entry has not written, or that it has already, is no news. -/
theorem entryRead_unneeded (h : e.missing i = false) : entryRead e i d s = s := by simp [entryRead, h]

/-- A line that is not the last one missing joins the entry. -/
theorem entryRead_joins (hs : s.echo.entries = before ++ e :: after) (h : Apart e before) (hm : e.missing i = true)
    (hmask : (e.addLine i d).readMask ≠ e.written) :
    entryRead e i d s = withEntry before (e.addLine i d) after s := by
  have hmask' : ¬ (e.addLine i d).readMask = (e.addLine i d).written := hmask
  rw [entryRead, if_pos hm, compareEntry, if_neg hmask', modEntry_first _ hs h]
  rfl

/-- The last missing line with the expected sum: CONFIRMED. -/
theorem entryRead_confirms (hs : s.echo.entries = before ++ e :: after) (h : Apart e before) (hm : e.missing i = true)
    (hmask : (e.addLine i d).readMask = e.written) (hsum : (e.addLine i d).readSum = e.expected) :
    entryRead e i d s = retiredAs EchoCounters.addConfirmed e (before ++ after) s := by
  have hmask' : (e.addLine i d).readMask = (e.addLine i d).written := hmask
  have hsum' : (e.addLine i d).readSum = (e.addLine i d).expected := hsum
  rw [entryRead, if_pos hm, compareEntry, if_pos hmask', if_pos hsum', modEntry_first _ hs h,
    countEcho_retire (e := e.addLine i d) _ rfl h]
  rfl

/-- The last missing line with another sum: MISMATCH, a finding against the pair. -/
theorem entryRead_mismatches (hs : s.echo.entries = before ++ e :: after) (h : Apart e before)
    (hm : e.missing i = true) (hmask : (e.addLine i d).readMask = e.written)
    (hsum : (e.addLine i d).readSum ≠ e.expected) :
    entryRead e i d s
      = echoFinding e.pair .mismatch (retiredAs EchoCounters.addMismatched e (before ++ after) s) := by
  have hmask' : (e.addLine i d).readMask = (e.addLine i d).written := hmask
  have hsum' : ¬ (e.addLine i d).readSum = (e.addLine i d).expected := hsum
  rw [entryRead, if_pos hm, compareEntry, if_pos hmask', if_neg hsum', modEntry_first _ hs h,
    countEcho_retire (e := e.addLine i d) _ rfl h]
  rfl

/-- The entry with a line added is neither more nor less a current entry. -/
theorem withEntry_settled (hs : s.echo.entries = before ++ e :: after) (hset : prbSettled s) :
    prbSettled (withEntry before (e.addLine i d) after s) := by
  refine hset.imp id (Or.imp id fun ⟨h1, h2, h3⟩ => ⟨h1, ?_, h3⟩)
  rw [currentEntry_none] at h2 ⊢
  rw [hs] at h2
  intro f hf
  rcases List.mem_append.mp hf with hf | hf
  · exact h2 f (List.mem_append_left _ hf)
  · rcases List.mem_cons.mp hf with rfl | hf
    · exact h2 e (by simp)
    · exact h2 f (by simp [hf])

end

/-! ### Reads of completion slots -/

section
variable {s : State} {e : EchoEntry} {before after : List EchoEntry} {line : Fin 8} {data : LineData}

theorem readHanded_completion {n : StreamIx} (slot : Nat) (hrole : (s.stream n).desc.role = .completion) :
    readHanded n slot line data s = lineRead { stream := n, slot := slot } line.1 data s := by
  simp only [readHanded, hrole]

/-- The read of a slot goes to the oldest entry that watches it. -/
theorem readHanded_watched (hrole : (s.stream e.stream).desc.role = .completion)
    (hs : s.echo.entries = before ++ e :: after) (hb : ∀ f ∈ before, ¬ (f.stream = e.stream ∧ f.slot = e.slot)) :
    readHanded e.stream e.slot line data s = entryRead e line.1 data s := by
  have hfind : findEcho { stream := e.stream, slot := e.slot } s = some e :=
    findEcho_first hs fun f hf k => hb f hf (key_eq.mp k)
  rw [readHanded_completion _ hrole, lineRead, hfind]

end

theorem apart_of_slot {e : EchoEntry} {before : List EchoEntry}
    (hb : ∀ f ∈ before, ¬ (f.stream = e.stream ∧ f.slot = e.slot)) : Apart e before :=
  fun f hf => .inl fun k => hb f hf (key_eq.mp k)

/-- Settles O34: the read reaches the oldest entry of its slot, which takes the line, is confirmed or is mismatched; with the
entry retired the PRB is settled still. -/
theorem fetchIsCompared : Obligations.FetchIsCompared := by
  refine ⟨fun which line data before after e s hl hread hset hrest hrole hs hb hw hr => ?_,
    fun which n slot line data s hl hread hset hrole => ?_⟩
  · have hapart := apart_of_slot hb
    have hmiss : e.missing line.1 = true := by rw [EchoEntry.missing, hw, hr]; rfl
    have hexec := exec_wholeRead data hl hread
    rw [readHanded_watched (s := readCounted which s) hrole hs hb] at hexec
    have hretired (f : EchoCounters → EchoCounters) :
        prbSettled (retiredAs f e (before ++ after) (readCounted which s)) :=
      afterRetire_settled hs hset hrest rfl rfl
    refine ⟨fun hmask => ?_, fun hmask hsum => ?_, fun hmask hsum => ?_⟩
    · rw [hexec, entryRead_joins (s := readCounted which s) hs hapart hmiss hmask,
        prbTake_settled _ (withEntry_settled (s := readCounted which s) hs (prbSettled_congr rfl rfl hset))]
      rfl
    · rw [hexec, entryRead_confirms (s := readCounted which s) hs hapart hmiss hmask hsum,
        prbTake_settled _ (hretired _)]
      rfl
    · have hfound := echoFinding_found e.pair .mismatch
        (retiredAs EchoCounters.addMismatched e (before ++ after) (readCounted which s))
      rw [entryRead_mismatches (s := readCounted which s) hs hapart hmiss hmask hsum,
        prbTake_kept (hretired _) (echoFinding_echo ..) (by rw [echoFinding_tap])] at hexec
      exact ⟨_, hexec, echoFinding_frame _ _ _, hfound⟩
  · intro watches hcase
    have hsame : lineRead { stream := n, slot := slot } line.1 data (readCounted which s) = readCounted which s := by
      rcases hcase with hnone | ⟨before, e, after, hs, hb, ⟨rfl, rfl⟩, hneeded⟩
      · have hfind : findEcho { stream := n, slot := slot } (readCounted which s) = none :=
          findEcho_none.mpr fun e he k => hnone e he (key_eq.mp k)
        simp only [lineRead, hfind]
      · rw [← readHanded_completion (s := readCounted which s) _ hrole,
          readHanded_watched (s := readCounted which s) hrole hs hb]
        exact entryRead_unneeded (by rcases hneeded with h | h <;> rw [EchoEntry.missing, h] <;> simp)
    rw [exec_wholeRead data hl hread, readHanded_completion (s := readCounted which s) _ hrole, hsame,
      prbTake_kept hset] <;> rfl

end Sys2Proof.Machine
end

/-! ## The probe handshake, and the lines that it brings in or loses -/
section

namespace Sys2Proof.Machine

/-! ### The PRB takes its next line (R119) -/

/-- The line that an entry needs next is the first missing one. -/
theorem nextLine_some {e : EchoEntry} {i : Nat} (hi : i < 8) (hm : e.missing i = true)
    (hj : ∀ j, j < i → e.missing j = false) : e.nextLine = some i := by
  have hr : lineIndices = List.range 8 := rfl
  rw [EchoEntry.nextLine, hr, List.find?_range_eq_some]
  exact ⟨hm, List.mem_range.mpr hi, fun j h => by simp [hj j h]⟩

theorem nextLine_none {e : EchoEntry} (h : ∀ i, i < 8 → e.missing i = false) : e.nextLine = none := by
  have hr : lineIndices = List.range 8 := rfl
  rw [EchoEntry.nextLine, hr, List.find?_eq_none]
  exact fun i hi => by simp [h i (List.mem_range.mp hi)]

/-- The state with this line in hand, which the port has not taken yet. -/
def lineWaits (l : LineInHand) (s : State) : State := { s with echo := { s.echo with prb := .requesting l } }

/-- A port that is not IDLE leaves the line with the PRB (R14, R119). -/
theorem takeLine_waits {s : State} {l : LineInHand} (h : s.tap.port.phase ≠ .idle) : takeLine l s = lineWaits l s := by
  simp [takeLine, handOver, State.modEcho, h, lineWaits]

/-- The PRB takes the next missing line of its current entry, if it has one (R119, step 2). -/
theorem prbTake_currentEntry {s : State} {e : EchoEntry} (he : currentEntry s = some e) (hprb : s.echo.prb = .idle)
    (hb : s.tap.brstAsserted = false) (hsingle : s.echo.single.isBusy = false) (hport : s.tap.port.phase ≠ .idle) :
    prbTake s = match e.nextLine with
      | none => s
      | some i => lineWaits (entryLine s e i) s := by
  have hentry : takeEntryLine s = match e.nextLine with
      | none => s
      | some i => lineWaits (entryLine s e i) s := by
    simp only [takeEntryLine, he]
    cases e.nextLine with
    | none => rfl
    | some i => exact takeLine_waits hport
  have htake : ¬ (s.echo.prb ≠ .idle ∨ s.tap.brstAsserted = true) := by simp [hprb, hb]
  rw [prbTake, if_neg htake]
  split
  · next a ha => simp [ha, SingleProbe.isBusy] at hsingle
  · rw [if_pos (by rw [he]; rfl), hentry]

/-! ### The end of a line in hand -/

/-- The state with no line in hand. -/
def prbIdle (s : State) : State := { s with echo := { s.echo with prb := .idle } }

/-- An entry retired while PROBING, with no line in hand, leaves the list alone. -/
theorem retiredAs_idle {s : State} {e : EchoEntry} (f : EchoCounters → EchoCounters) (rest : List EchoEntry)
    (he : e.status = .probing) (hprb : s.echo.prb = .idle) :
    retiredAs f e rest s = { s with echo := { s.echo with entries := rest, counters := f s.echo.counters } } := by
  have hqueued : ¬ e.status = .queued := by simp [he]
  have hline : withdrawn e s.echo.prb s.tap.port = s.tap.port := by rw [hprb]; rfl
  have hgiven : givenUp e s.echo.prb = s.echo.prb := by rw [hprb]; rfl
  rw [retiredAs, retired, hline, hgiven, if_neg hqueued]

theorem apart_of_probing {e : EchoEntry} {before : List EchoEntry} (he : e.status = .probing)
    (hb : ∀ f ∈ before, f.status ≠ .probing) : Apart e before :=
  fun f hf => .inr (he ▸ hb f hf)

section
variable {s : State} {l : LineInHand} {void : Bool} {data : LineData}

/-- A discarded line is dropped (R122). -/
theorem lineOutcome_discarded (hprb : s.echo.prb = .reading l) (hl : l.discard = true) :
    lineOutcome void data s = prbIdle s := by
  simp [lineOutcome, hprb, hl, prbIdle, State.modEcho]

/-- The single probe ends with the outcome of its line (R124). -/
theorem lineOutcome_single {b : LineAddr} (hprb : s.echo.prb = .reading l) (hl : l.discard = false)
    (hp : l.purpose = .singleProbe) (hs : s.echo.single = .busy b) :
    lineOutcome void data s = { s with echo := { s.echo with
      prb := .idle, single := .done b (if void then .overtaken else .ok data) } } := by
  simp [lineOutcome, hprb, hl, hp, endSingle, hs, State.modEcho]

/-- A line read for an entry fits it: not voided, and the entry misses it (R121). -/
def probeFits (void : Bool) (i : Nat) (e : EchoEntry) : Bool :=
  !void && e.written.getLsbD i && !e.readMask.getLsbD i

theorem probeFits_iff {i : Nat} {e : EchoEntry} :
    probeFits void i e = true ↔ void = false ∧ e.missing i = true := by
  simp only [probeFits, EchoEntry.missing, Bool.and_eq_true, Bool.not_eq_true', and_assoc]

/-- The entry after a line was read for it (R121). -/
def probed (void : Bool) (i : Nat) (d : LineData) (e : EchoEntry) : EchoEntry :=
  if probeFits void i e then e.addLine i d else e

theorem probed_kept (void : Bool) (i : Nat) (d : LineData) (e : EchoEntry) :
    (probed void i d e).status = e.status ∧ (probed void i d e).slotBase = e.slotBase := by
  unfold probed; split <;> exact ⟨rfl, rfl⟩

theorem probed_fits {i : Nat} {e : EchoEntry} (h : probeFits void i e = true) :
    probed void i data e = e.addLine i data := if_pos h

variable {e : EchoEntry} {before after : List EchoEntry}

/-- The data of a line in hand for the current entry (R121). -/
theorem lineOutcome_entry (hprb : s.echo.prb = .reading l) (hp : l.purpose = .currentEntry) (hl : l.discard = false)
    (hs : s.echo.entries = before ++ e :: after) (he : e.status = .probing) (hb : ∀ f ∈ before, f.status ≠ .probing) :
    lineOutcome void data s = if void then prbIdle s else entryRead e l.index data (prbIdle s) := by
  have hcur : currentEntry (s.modEcho fun x => { x with prb := .idle }) = some e :=
    currentEntry_first (s := s.modEcho _) hs he hb
  simp only [lineOutcome, hprb, hl, hp, hcur, Bool.false_eq_true, if_false]
  rfl

/-- A line that does not complete the entry: it joins where it fits. -/
theorem lineOutcome_incomplete (hprb : s.echo.prb = .reading l) (hp : l.purpose = .currentEntry)
    (hl : l.discard = false) (hs : s.echo.entries = before ++ e :: after) (he : e.status = .probing)
    (hb : ∀ f ∈ before, f.status ≠ .probing)
    (hc : ¬ (probeFits void l.index e = true ∧ (probed void l.index data e).readMask = e.written)) :
    lineOutcome void data s = withEntry before (probed void l.index data e) after (prbIdle s) := by
  rw [lineOutcome_entry hprb hp hl hs he hb]
  by_cases hfits : probeFits void l.index e = true
  · obtain ⟨hvoid, hmiss⟩ := probeFits_iff.mp hfits
    rw [probed_fits hfits] at hc ⊢
    rw [if_neg (by simp [hvoid]), entryRead_joins (s := prbIdle s) hs (apart_of_probing he hb) hmiss
      fun k => hc ⟨hfits, k⟩]
  · have hsame : withEntry before e after (prbIdle s) = prbIdle s := by rw [withEntry, ← hs]; rfl
    rw [probed, if_neg hfits, hsame]
    split
    · rfl
    · next hvoid =>
      exact entryRead_unneeded (Bool.eq_false_iff.mpr fun k => hfits (probeFits_iff.mpr ⟨Bool.eq_false_iff.mpr hvoid, k⟩))

/-- The line that completes the entry, confirmed or mismatched (R112). -/
theorem lineOutcome_complete (hprb : s.echo.prb = .reading l) (hp : l.purpose = .currentEntry)
    (hl : l.discard = false) (hs : s.echo.entries = before ++ e :: after) (he : e.status = .probing)
    (hb : ∀ f ∈ before, f.status ≠ .probing) (hfits : probeFits void l.index e = true)
    (hmask : (probed void l.index data e).readMask = e.written) :
    lineOutcome void data s =
      if (probed void l.index data e).readSum = e.expected then
        retiredAs EchoCounters.addConfirmed e (before ++ after) (prbIdle s)
      else echoFinding e.pair .mismatch (retiredAs EchoCounters.addMismatched e (before ++ after) (prbIdle s)) := by
  obtain ⟨hvoid, hmiss⟩ := probeFits_iff.mp hfits
  have hapart := apart_of_probing he hb
  rw [probed_fits hfits] at hmask ⊢
  rw [lineOutcome_entry hprb hp hl hs he hb, if_neg (by simp [hvoid])]
  split
  · next hsum => exact entryRead_confirms (s := prbIdle s) hs hapart hmiss hmask hsum
  · next hsum => exact entryRead_mismatches (s := prbIdle s) hs hapart hmiss hmask hsum

end

/-! ### The port's part (R14, R15) -/

/-- The state once the port has restored the bank and released PREQ at the data of a probe. -/
def probeReleased (a : LineAddr) (s : State) : State :=
  { s with tap := { s.tap.setBank (bankOfAddress s.straps.amap a) s.tap.port.savedBank with
      port := { s.tap.port with phase := .releasing, line := none } } }

theorem exec_probeDataReturn {s : State} {a : LineAddr} (data : LineData) (hphase : s.tap.port.phase = .reading)
    (hline : s.tap.port.line = some a) : exec (.probeDataReturn data false) s
      = .next (prbTake (lineOutcome s.tap.port.voidMark data (probeReleased a s))) := by
  simp only [exec, execProbeDataReturn, hphase, hline]
  rfl

theorem exec_probeDataReturn_discarded {s : State} (data : LineData) {abandoned : Bool}
    (h : abandoned = true ∨ s.tap.port.phase ≠ .reading) : exec (.probeDataReturn data abandoned) s = .next s := by
  simp only [exec, execProbeDataReturn]
  split
  · next hphase _ => simp [hphase] at h
  · rfl

/-- A state that differs from the released one in the echo part, the sources and the pairs alone: what the handshake says of
the tap. -/
theorem probeReleased_frame {s t : State} {a : LineAddr}
    (h : t = { probeReleased a s with echo := t.echo, iar := t.iar, pairs := t.pairs }) :
    t = { s with
        tap := { s.tap with
          openRows := t.tap.openRows, port := { s.tap.port with phase := .releasing, line := none } }
        echo := t.echo, iar := t.iar, pairs := t.pairs }
      ∧ t.tap.bank (bankOfAddress s.straps.amap a) = s.tap.port.savedBank
      ∧ ∀ b, b ≠ bankOfAddress s.straps.amap a → t.tap.bank b = s.tap.bank b := by
  have htap : t.tap = (probeReleased a s).tap := by rw [h]
  refine ⟨by rw [htap]; exact h, ?_, fun b hb => ?_⟩
  · rw [htap]; exact setBank_same s.tap _ _
  · rw [htap]; exact setBank_other s.tap hb _

theorem exec_probeGrant_requesting {s : State} {a : LineAddr} {l : LineInHand}
    (hphase : s.tap.port.phase = .requesting) (hline : s.tap.port.line = some a) (hprb : s.echo.prb = .requesting l) :
    exec .probeGrant s = .next
      { s with
        tap := { s.tap.setBank (bankOfAddress s.straps.amap a) (.openRow (rowOfAddress s.straps.amap a)) with
          port := { phase := .reading, line := some a, voidMark := false
                    savedBank := s.tap.bank (bankOfAddress s.straps.amap a), pgnt := true } }
        echo := { s.echo with prb := .reading l } } := by
  simp only [exec, execProbeGrant, hphase, hline, State.modPort, State.modTap, State.modEcho, hprb]
  rfl

theorem exec_probeGrant_other {s : State} (hphase : s.tap.port.phase ≠ .requesting) :
    exec .probeGrant s = .next (s.modPort fun x => { x with pgnt := true }) := by
  simp only [exec, execProbeGrant]
  split
  · contradiction
  · rfl

theorem exec_probeGrantReleased_held {s : State} {a : LineAddr} (hphase : s.tap.port.phase = .releasing)
    (hline : s.tap.port.line = some a) :
    exec .probeGrantReleased s = .next (s.modPort fun x => { x with phase := .requesting, pgnt := false }) := by
  simp only [exec, execProbeGrantReleased, hphase, hline]
  rfl

theorem exec_probeGrantReleased_free {s : State} (hphase : s.tap.port.phase = .releasing)
    (hline : s.tap.port.line = none) : exec .probeGrantReleased s = .next
      (prbTake (handOver (s.modPort fun x => { x with phase := .idle, voidMark := false, pgnt := false }))) := by
  simp only [exec, execProbeGrantReleased, hphase, hline]
  rfl

theorem exec_probeGrantReleased_other {s : State} (hphase : s.tap.port.phase ≠ .releasing) :
    exec .probeGrantReleased s = .next (s.modPort fun x => { x with pgnt := false }) := by
  cases h : s.tap.port.phase with
  | releasing => exact absurd h hphase
  | idle => simp only [exec, execProbeGrantReleased, h]
  | requesting => simp only [exec, execProbeGrantReleased, h]
  | reading => simp only [exec, execProbeGrantReleased, h]

theorem handOver_nothing {s : State} (h : ∀ l, s.echo.prb ≠ .requesting l) : handOver s = s := by
  unfold handOver
  split
  · next l hl => exact absurd hl (h l)
  · rfl

theorem handOver_idle {s : State} {l : LineInHand} (hprb : s.echo.prb = .requesting l)
    (hphase : s.tap.port.phase = .idle) : handOver s = s.modPort (ProbePort.takeLine l.address) := by
  simp [handOver, hprb, hphase]

/-! ### The handshake's statement, case by case -/

section
variable {s : State} {a : LineAddr} {l : LineInHand} {data : LineData}

/-- With nothing else to serve, a PRB that has dropped its line stays as it is. -/
theorem prbTake_without_work {t : State} (hs : t.echo.single.isBusy = false) (hc : currentEntry t = none)
    (hq : t.echo.probeQueue = []) : prbTake t = t := prbTake_settled t (.inr (.inr ⟨hs, hc, hq⟩))

/-- The data of a discarded line, or of the single probe's. -/
theorem dataReturn_single (hphase : s.tap.port.phase = .reading) (hline : s.tap.port.line = some a)
    (hprb : s.echo.prb = .reading l) (hcur : currentEntry s = none) (hq : s.echo.probeQueue = [])
    (hcase : l.discard = true ∧ s.echo.single.isBusy = false
      ∨ l.discard = false ∧ l.purpose = .singleProbe ∧ ∃ b, s.echo.single = .busy b) :
    exec (.probeDataReturn data false) s = .next
      { probeReleased a s with echo := { s.echo with
          prb := .idle
          single := if l.discard then s.echo.single else (match s.echo.single with
            | .busy b => .done b (if s.tap.port.voidMark then .overtaken else .ok data)
            | x => x) } } := by
  rw [exec_probeDataReturn data hphase hline]
  rcases hcase with ⟨hl, hsingle⟩ | ⟨hl, hp, b, hsingle⟩
  · have htake : prbTake (prbIdle (probeReleased a s)) = _ := prbTake_without_work hsingle hcur hq
    rw [lineOutcome_discarded (s := probeReleased a s) hprb hl, htake, if_pos hl]
    rfl
  · rw [lineOutcome_single (s := probeReleased a s) hprb hl hp hsingle, hl, hsingle, prbTake_without_work rfl]
    · rfl
    · exact hcur
    · exact hq

variable {e : EchoEntry} {before after : List EchoEntry}

/-- No other entry is PROBING: with this one retired the list has none. -/
theorem rest_not_probing {t : State} (hb : ∀ f ∈ before ++ after, f.status ≠ .probing)
    (ht : t.echo.entries = before ++ after) : currentEntry t = none :=
  currentEntry_none.mpr (ht ▸ hb)

/-- The data of the current entry's line, where it does not complete the entry: the entry as `probed`, and the next line in
hand if one is missing. -/
theorem dataReturn_incomplete (hphase : s.tap.port.phase = .reading) (hline : s.tap.port.line = some a)
    (hprb : s.echo.prb = .reading l) (hp : l.purpose = .currentEntry) (hl : l.discard = false)
    (hsingle : s.echo.single.isBusy = false) (hs : s.echo.entries = before ++ e :: after) (he : e.status = .probing)
    (hb : ∀ f ∈ before, f.status ≠ .probing) (hbrst : s.tap.brstAsserted = false)
    (hc : ¬ (probeFits s.tap.port.voidMark l.index e = true
      ∧ (probed s.tap.port.voidMark l.index data e).readMask = e.written)) :
    exec (.probeDataReturn data false) s = .next
      { probeReleased a s with echo := { s.echo with
          entries := before ++ probed s.tap.port.voidMark l.index data e :: after
          prb := match (probed s.tap.port.voidMark l.index data e).nextLine with
            | none => .idle
            | some i => .requesting (entryLine s (probed s.tap.port.voidMark l.index data e) i) } } := by
  have hcur : currentEntry (withEntry before (probed s.tap.port.voidMark l.index data e) after
      (prbIdle (probeReleased a s))) = some (probed s.tap.port.voidMark l.index data e) :=
    currentEntry_first rfl ((probed_kept ..).1.trans he) hb
  rw [exec_probeDataReturn data hphase hline, lineOutcome_incomplete (s := probeReleased a s) hprb hp hl hs he hb hc,
    prbTake_currentEntry hcur rfl hbrst hsingle (by simp [withEntry, prbIdle, probeReleased])]
  cases (probed s.tap.port.voidMark l.index data e).nextLine <;> rfl

/-- The PRB after data that does not complete the current entry: it has the next missing line in hand, or none. -/
theorem next_line_in_hand (s : State) (x : EchoEntry) :
    let prb : PrbState := match x.nextLine with
      | none => .idle
      | some i => .requesting (entryLine s x i)
    (∀ i, i < 8 → x.written.getLsbD i = true → x.readMask.getLsbD i = false →
        (∀ j, j < i → x.written.getLsbD j = true → x.readMask.getLsbD j = true) →
        prb = .requesting (entryLine s x i))
      ∧ ((∀ i, i < 8 → x.written.getLsbD i = true → x.readMask.getLsbD i = true) → prb = .idle) := by
  have hmissing (j : Nat) (h : x.written.getLsbD j = true → x.readMask.getLsbD j = true) : x.missing j = false := by
    rw [EchoEntry.missing]
    cases hw : x.written.getLsbD j with
    | false => rfl
    | true => rw [h hw]; rfl
  refine ⟨fun i hi hw hr hj => ?_, fun h => ?_⟩
  · have hm : x.missing i = true := by rw [EchoEntry.missing, hw, hr]; rfl
    rw [nextLine_some hi hm fun j h => hmissing j (hj j h)]
  · rw [nextLine_none fun i hi => hmissing i (h i hi)]

/-- The data of the current entry's line (R121): the entry as `probed`, and with no line missing CONFIRMED or MISMATCH. -/
theorem dataReturn_entry (hphase : s.tap.port.phase = .reading) (hline : s.tap.port.line = some a)
    (hprb : s.echo.prb = .reading l) (hp : l.purpose = .currentEntry) (hl : l.discard = false)
    (hsingle : s.echo.single.isBusy = false) (hq : s.echo.probeQueue = [])
    (hs : s.echo.entries = before ++ e :: after) (he : e.status = .probing)
    (hb : ∀ f ∈ before ++ after, f.status ≠ .probing) (hbrst : s.tap.brstAsserted = false) :
    let x := probed s.tap.port.voidMark l.index data e
    let complete : Prop := probeFits s.tap.port.voidMark l.index e = true ∧ x.readMask = e.written
    ∃ t, exec (.probeDataReturn data false) s = .next t
      ∧ t = { probeReleased a s with echo := t.echo, iar := t.iar, pairs := t.pairs }
      ∧ (¬ complete → t.iar = s.iar ∧ t.pairs = s.pairs
        ∧ t.echo = { s.echo with entries := before ++ x :: after, prb := t.echo.prb }
        ∧ (∀ i, i < 8 → x.written.getLsbD i = true → x.readMask.getLsbD i = false →
            (∀ j, j < i → x.written.getLsbD j = true → x.readMask.getLsbD j = true) →
            t.echo.prb = .requesting (entryLine s x i))
        ∧ ((∀ i, i < 8 → x.written.getLsbD i = true → x.readMask.getLsbD i = true) → t.echo.prb = .idle))
      ∧ (complete → x.readSum = e.expected → t.iar = s.iar ∧ t.pairs = s.pairs
        ∧ t.echo = { s.echo with
            entries := before ++ after, prb := .idle, counters := s.echo.counters.addConfirmed })
      ∧ (complete → x.readSum ≠ e.expected → Found e.pair .mismatch s t
        ∧ t.echo = { s.echo with
            entries := before ++ after, prb := .idle, counters := s.echo.counters.addMismatched }) := by
  intro x complete
  have hbefore : ∀ f ∈ before, f.status ≠ .probing := fun f hf => hb f (List.mem_append_left _ hf)
  by_cases hc : complete
  · have hexec := exec_probeDataReturn data hphase hline
    rw [lineOutcome_complete (s := probeReleased a s) hprb hp hl hs he hbefore hc.1 hc.2, retiredAs_idle _ _ he rfl,
      retiredAs_idle _ _ he rfl] at hexec
    by_cases hsum : x.readSum = e.expected
    · rw [if_pos hsum, prbTake_without_work] at hexec
      · exact ⟨_, hexec, rfl, absurd hc, fun _ _ => ⟨rfl, rfl, rfl⟩, fun _ k => absurd hsum k⟩
      · exact hsingle
      · exact rest_not_probing hb rfl
      · exact hq
    · rw [if_neg hsum, prbTake_without_work] at hexec
      · exact ⟨_, hexec, (echoFinding_frame _ _ _).trans (by rw [echoFinding_echo]; rfl), absurd hc, fun _ k => absurd k hsum,
          fun _ _ => ⟨echoFinding_found _ _ _, echoFinding_echo ..⟩⟩
      · rw [echoFinding_echo]; exact hsingle
      · exact rest_not_probing hb (by rw [echoFinding_echo])
      · rw [echoFinding_echo]; exact hq
  · exact ⟨_, dataReturn_incomplete hphase hline hprb hp hl hsingle hs he hbefore hbrst hc, rfl,
      fun _ => ⟨rfl, rfl, rfl, next_line_in_hand s x⟩, fun k => absurd k hc, fun k => absurd k hc⟩

end

/-- Settles O47: the grant, the data and the release, each by the equation of its row. -/
theorem probeHandshake : Obligations.ProbeHandshake := by
  intro a l data s
  refine ⟨fun hphase hline hprb => ?_, exec_probeGrant_other, fun hphase hline hprb hcur hq hcase => ?_,
    fun before e after hphase hline hprb hp hl hsingle hq hs he hb hbrst => ?_,
    exec_probeDataReturn_discarded data (.inl rfl), fun h => exec_probeDataReturn_discarded data (.inr h),
    exec_probeGrantReleased_held, fun hphase hline hprb hset => ?_, fun hphase hline hprb => ?_,
    exec_probeGrantReleased_other⟩
  · exact ⟨_, exec_probeGrant_requesting hphase hline hprb, rfl, setBank_same s.tap _ _,
      fun b hb => setBank_other s.tap hb _⟩
  · exact ⟨_, dataReturn_single hphase hline hprb hcur hq hcase, rfl, setBank_same s.tap _ _,
      fun b hb => setBank_other s.tap hb _⟩
  · obtain ⟨t, hexec, hframe, hmore, hconfirmed, hmismatched⟩ :=
      dataReturn_entry (data := data) hphase hline hprb hp hl hsingle hq hs he hb hbrst
    obtain ⟨htap, hbank, hother⟩ := probeReleased_frame hframe
    have haddr (i : Nat) : entryLine s (probed s.tap.port.voidMark l.index data e) i
        = { purpose := .currentEntry, address := e.slotBase + BitVec.ofNat 36 (64 * i), index := i
            takenAt := s.clock, discard := false } := by rw [entryLine, (probed_kept ..).2]
    simp only [haddr] at hmore
    refine ⟨t, hexec, htap, hbank, hother, hmore, hconfirmed, fun hc hsum => ?_⟩
    obtain ⟨⟨hposted, hpairs, hpair⟩, hecho⟩ := hmismatched hc hsum
    exact ⟨hposted, hpairs, hecho, hpair⟩
  · rw [exec_probeGrantReleased_free hphase hline, handOver_nothing (s := s.modPort _) hprb, prbTake_kept hset] <;> rfl
  · refine ⟨_, exec_probeGrantReleased_free hphase hline, ?_⟩
    rw [handOver_idle (s := s.modPort _) hprb rfl, prbTake_settled _ (.inl (by simp [hprb]))]
    exact ⟨rfl, rfl⟩

end Sys2Proof.Machine
end

/-! ## The discontinuity and the board reset input -/
section

namespace Sys2Proof.Machine

@[simp] theorem satAdd_toNat (c : BitVec 16) (n : Nat) : (satAdd c n).toNat = min (c.toNat + n) 65535 := by
  rw [satAdd, BitVec.toNat_ofNat, Nat.mod_eq_of_lt (by omega)]

/-! ### Its start (R13, R40, R69, R103, R107, R128) -/

theorem flushEcho_eq (s : State) : flushEcho s = { s with echo := { s.echo with
    entries := [], probeQueue := [], prb := .idle
    single := match s.echo.single with | .busy a => .done a .overtaken | x => x
    counters := { s.echo.counters with flushed := satAdd s.echo.counters.flushed s.echo.entries.length } } } := by
  unfold flushEcho endSingle
  cases h : s.echo.single <;> simp [State.modEcho, h]

/-- A pair at the start of a discontinuity, by its health (R69, R103). -/
theorem discontinued_pair (q : Pair) :
    q.discontinued =
      let counters := { q.counters with
        discarded := q.counters.discarded + BitVec.ofNat 32 (q.openList.length + q.lateList.length) }
      let held := q.hev.window.map fun w => { held := true, start := w.start, paired := 0, adverse := 0, taint := false }
      match q.health with
      | .healthy | .watch | .suspect | .quiesced =>
        { q with
          health := .healthy, openList := [], lateList := [], counters := counters
          hev := { q.hev with
            window := held, history := [], confirm := 0, promotionPending := false, quiesceStart := none } }
      | .failed => { q with openList := [], lateList := [], counters := counters, hev := { q.hev with window := held } }
      | .draining | .disabled =>
        { q with health := .disabled, openList := [], lateList := [], counters := counters } := by
  obtain ⟨desc, health, openList, lateList, counters, est, timeout, hev⟩ := q
  cases health <;> rfl

theorem startDiscontinuity_discontinued (s : State) : Discontinued s (startDiscontinuity s) := by
  refine ⟨?_, fun b => ?_, ?_, fun n => ?_, fun p => ?_⟩
  · rw [startDiscontinuity, flushEcho_eq]; rfl
  · simp [startDiscontinuity, Tap.bank]
  · rw [startDiscontinuity, flushEcho_eq]; exact satAdd_toNat _ _
  · rw [startDiscontinuity, flushEcho_eq]; exact vmap_place Stream.discontinued s.streams n
  · rw [startDiscontinuity, flushEcho_eq]
    exact (vmap_place Pair.discontinued s.pairs p).trans (discontinued_pair _)

/-! ### Its end (R13, R41, R103, R107) -/

theorem endDiscontinuity_restarted (s : State) : Restarted s (endDiscontinuity s) :=
  ⟨rfl, fun n => vmap_place (Stream.restarted s.clock) s.streams n,
    fun p => vmap_place (Pair.modWindow (EvalWindow.restarted s.clock)) s.pairs p⟩

/-! ### The board reset input (R12) -/

/-- The PRB takes a BUSY single probe's line and hands it to the port (R14, R119). -/
theorem takeLine_eq (l : LineInHand) (s : State) : takeLine l s = lineTaken l s := by
  unfold takeLine handOver lineTaken
  simp only [modEcho_echo, modEcho_tap]
  by_cases h : s.tap.port.phase = .idle
  · simp only [h, if_true]; rfl
  · simp only [h, if_false]; rfl

/-- A PRB that is free, with no echo entry to serve, takes the line of a BUSY single probe and nothing else (R119). -/
theorem prbTake_single {s : State} (hprb : s.echo.prb = .idle) (hb : s.tap.brstAsserted = false)
    (hcur : currentEntry s = none) (hq : s.echo.probeQueue = []) :
    prbTake s = match s.echo.single with
      | .busy a => lineTaken
          { purpose := .singleProbe, address := a, index := 0, takenAt := s.clock, discard := false } s
      | _ => s := by
  have hbusy : ¬ (s.echo.prb ≠ .idle ∨ s.tap.brstAsserted = true) := by simp [hprb, hb]
  cases h : s.echo.single with
  | busy a =>
    rw [prbTake, if_neg hbusy]
    simp only [h]
    exact takeLine_eq _ s
  | idle => exact prbTake_without_work (by rw [h]; rfl) hcur hq
  | done a o => exact prbTake_without_work (by rw [h]; rfl) hcur hq

/-- Settles O28: the assertion is the start of a discontinuity, the release its end and the take of a waiting single probe. -/
theorem boardResetIsADiscontinuity : Obligations.BoardResetIsADiscontinuity := by
  intro s
  refine ⟨fun hb => ?_, fun hb hprb hcur hq => ?_, fun hb => ?_, fun hb => ?_⟩
  · refine ⟨_, ?_, startDiscontinuity_discontinued _⟩
    simp only [exec, execBoardResetAsserted, hb, Bool.false_eq_true, if_false]
    rfl
  · refine ⟨endDiscontinuity { s with tap := { s.tap with brstAsserted := false } }, _, ?_,
      endDiscontinuity_restarted _, rfl⟩
    simp only [exec, execBoardResetReleased, hb, if_true]
    exact congrArg Host.Outcome.next (prbTake_single (s := endDiscontinuity _) hprb rfl hcur hq)
  · simp only [exec, execBoardResetAsserted, hb, if_true]
  · simp only [exec, execBoardResetReleased, hb, Bool.false_eq_true, if_false]

end Sys2Proof.Machine
end

/-! ## Fence triggers: what the entry to FAULT does to the pairs, the sources and the standing-trigger set -/
section

namespace Sys2Proof.Machine

/-! ### Operations at one pair -/

theorem pairSource_injective {p r : PairIx} (h : pairSource p = pairSource r) : p = r := by
  have := congrArg Fin.val h
  exact Fin.ext (by simpa [pairSource] using this)

theorem boardSource_not_pair (p : PairIx) : boardSource ≠ pairSource p := by
  revert p; decide

/-- Of the pairs and the incident sources, only this pair and its source may have changed. -/
structure AtPair (p : PairIx) (s t : State) : Prop where
  pairs : OtherPairs p s t
  sources : ∀ j, j ≠ pairSource p → t.source j = s.source j

namespace AtPair

variable {p : PairIx} {s t u : State}

theorem refl (p : PairIx) (s : State) : AtPair p s s := ⟨fun _ _ => rfl, fun _ _ => rfl⟩

theorem trans (h : AtPair p s t) (k : AtPair p t u) : AtPair p s u :=
  ⟨fun r e => (k.pairs r e).trans (h.pairs r e), fun j e => (k.sources j e).trans (h.sources j e)⟩

theorem post (p : PairIx) (s : State) (c : Cause) : AtPair p s (post (pairSource p) c s) :=
  ⟨fun _ _ => rfl, fun _ h => modSource_other s h _⟩

theorem modPair (p : PairIx) (s : State) (f : Pair → Pair) : AtPair p s (s.modPair p f) :=
  ⟨fun _ h => modPair_other s h f, fun _ _ => rfl⟩

theorem modVrd (p : PairIx) (s : State) (f : Vrd → Vrd) : AtPair p s (s.modVrd f) :=
  ⟨fun _ _ => rfl, fun _ _ => rfl⟩

theorem foldl {γ : Type} {f : State → γ → State} (hf : ∀ t a, AtPair p t (f t a)) (l : List γ) (s : State) :
    AtPair p s (l.foldl f s) :=
  foldl_keeps (P := AtPair p s) (fun t a h => h.trans (hf t a)) l (refl p s)

end AtPair

section
variable (p : PairIx) (s : State)

theorem expiryEvent_at : AtPair p s (expiryEvent p s) := by
  unfold expiryEvent; split
  · exact .modPair p s _
  · exact .refl p s

theorem expiryFinding_at (e : Entry) : AtPair p s (expiryFinding p s e) := by
  unfold expiryFinding; split
  · exact expiryEvent_at p s
  · exact (AtPair.post p s _).trans (expiryEvent_at p _)

theorem lossFinding_at (e : LateEntry) : AtPair p s (lossFinding p s e) :=
  (AtPair.post p s _).trans (expiryEvent_at p _)

theorem settleDraining_at : AtPair p s (settleDraining p s) := by
  unfold settleDraining; split
  · exact .modPair p s _
  · exact .refl p s

theorem examineOpen_at : AtPair p s (examineOpen p s) := by
  unfold examineOpen; dsimp only; split
  · exact (AtPair.modPair p s _).trans (.foldl (expiryFinding_at p) _ _)
  · exact .refl p s

theorem examineLate_at : AtPair p s (examineLate p s) := by
  unfold examineLate; dsimp only; split
  · exact ((AtPair.modPair p s _).trans (.foldl (lossFinding_at p) _ _)).trans (settleDraining_at p _)
  · exact .refl p s

theorem recomputeT_at : AtPair p s (recomputeT p s) := by
  unfold recomputeT; dsimp only; split
  · exact .refl p s
  · exact ((AtPair.modPair p s _).trans (examineOpen_at p _)).trans (examineLate_at p _)

theorem markFailed_at : AtPair p s (markFailed p s) := (AtPair.modPair p s _).trans (.post p _ _)

theorem joinInFault_at (m : Trigger) : AtPair p s (joinInFault m s) := by
  unfold joinInFault; split
  · exact .refl p s
  · exact .modVrd p s _

theorem failInFault_at : AtPair p s (failInFault p s) := by
  unfold failInFault; split
  · exact (markFailed_at p s).trans (joinInFault_at p _ _)
  · exact markFailed_at p s

end

/-! ### A step at each pair in turn -/

/-- A pair with its source. -/
def State.here (s : State) (p : PairIx) : Pair × Source := (s.pair p, s.source (pairSource p))

theorem pair_of_here {s t : State} {p : PairIx} (h : s.here p = t.here p) : s.pair p = t.pair p := (Prod.mk.inj h).1

theorem source_of_here {s t : State} {p : PairIx} (h : s.here p = t.here p) :
    s.source (pairSource p) = t.source (pairSource p) := (Prod.mk.inj h).2

theorem AtPair.here_other {p r : PairIx} {s t : State} (h : AtPair p s t) (hr : r ≠ p) : t.here r = s.here r := by
  rw [State.here, State.here, h.pairs r hr, h.sources _ fun e => hr (pairSource_injective e)]

section
variable {f : State → PairIx → State} {P : State → Prop}

theorem foldl_here_absent (hf : ∀ t r, AtPair r t (f t r)) {l : List PairIx} {p : PairIx} (hp : p ∉ l) (s : State) :
    (l.foldl f s).here p = s.here p := by
  induction l generalizing s with
  | nil => rfl
  | cons a l ih =>
    rw [List.foldl_cons, ih (fun h => hp (List.mem_cons_of_mem _ h)),
      (hf s a).here_other fun e => hp (e ▸ List.mem_cons_self ..)]

/-- A fold of steps, each at its own pair: a pair of the list meets its own step alone, in a state that has kept what every
step keeps. -/
theorem foldl_here (hf : ∀ t r, AtPair r t (f t r)) (hP : ∀ t r, P t → P (f t r)) {l : List PairIx} (hl : l.Nodup)
    {p : PairIx} (hp : p ∈ l) {s : State} (hs : P s) :
    ∃ t, P t ∧ t.here p = s.here p ∧ (l.foldl f s).here p = (f t p).here p := by
  induction l generalizing s with
  | nil => cases hp
  | cons a l ih =>
    obtain ⟨ha, hl⟩ := List.nodup_cons.mp hl
    rcases List.mem_cons.mp hp with rfl | hp
    · exact ⟨s, hs, rfl, foldl_here_absent hf ha _⟩
    · obtain ⟨t, ht, hpre, hpost⟩ := ih hl hp (hP s a hs)
      have hne : p ≠ a := fun e => ha (e ▸ hp)
      exact ⟨t, ht, hpre.trans ((hf s a).here_other hne), hpost⟩

/-- A source that no pair owns is as it was after steps at the pairs. -/
theorem foldl_source (hf : ∀ t r, AtPair r t (f t r)) (l : List PairIx) {j : SourceIx} (hj : ∀ p, j ≠ pairSource p)
    (s : State) : (l.foldl f s).source j = s.source j :=
  foldl_same (fun t : State => t.source j) (fun t r => (hf t r).sources j (hj r)) l s

end

theorem allPairs_nodup : allPairs.Nodup := by decide

/-! ### A new hold-off factor (R81) -/

/-- The pair after T was recomputed: its T is given by its estimator and F, and its health stays but for a DRAINING pair
that the heads leave without entries (R47, R80). -/
theorem recomputeT_pair (p : PairIx) (s : State) :
    ((recomputeT p s).pair p).hev.promotionPending = (s.pair p).hev.promotionPending
      ∧ ((s.pair p).health ≠ .draining → ((recomputeT p s).pair p).health = (s.pair p).health) := by
  unfold recomputeT
  dsimp only
  split
  · exact ⟨rfl, fun _ => rfl⟩
  · have h := examineBoth_examined
      (s.modPair p fun q => { q with timeout := timeoutOf (s.pair p).desc (s.pair p).est s.vrd.factor }) p
    refine ⟨by rw [h.promotion, modPair_same], fun hd => ?_⟩
    rcases h.health with k | ⟨k, -⟩
    · rw [k, modPair_same]
    · rw [modPair_same] at k; exact absurd k hd

theorem setFactor_pair (f : Nat) (s : State) (p : PairIx) :
    ((setFactor f s).pair p).desc = (s.pair p).desc ∧ ((setFactor f s).pair p).est = (s.pair p).est
      ∧ ((setFactor f s).pair p).timeout = timeoutOf (s.pair p).desc (s.pair p).est f
      ∧ ((setFactor f s).pair p).hev.promotionPending = (s.pair p).hev.promotionPending
      ∧ ((s.pair p).health ≠ .draining → ((setFactor f s).pair p).health = (s.pair p).health) := by
  obtain ⟨t, hfactor, hpre, hpost⟩ := foldl_here (P := fun t => t.vrd.factor = f) (fun t r => recomputeT_at r t)
    (fun t r h => by rw [recomputeT_vrd, h]) allPairs_nodup (mem_allPairs p)
    (s := s.modVrd fun v => { v with factor := f }) rfl
  have hbefore : t.pair p = s.pair p := pair_of_here hpre
  have hafter : (setFactor f s).pair p = (recomputeT p t).pair p := pair_of_here hpost
  obtain ⟨-, -, hdesc, hest, htimeout⟩ := recomputeT_spec t p
  obtain ⟨hpending, hhealth⟩ := recomputeT_pair p t
  rw [hafter, hdesc, hest, htimeout, hpending, hfactor, hbefore]
  exact ⟨rfl, rfl, rfl, rfl, fun h => (hhealth (by rwa [hbefore])).trans (by rw [hbefore])⟩

theorem setFactor_source (f : Nat) (s : State) {j : SourceIx} (hj : ∀ p, j ≠ pairSource p) :
    (setFactor f s).source j = s.source j :=
  foldl_source (fun t r => recomputeT_at r t) allPairs hj _

/-- A factor that changes no T changes nothing else (R80). -/
theorem setFactor_unchanged {f : Nat} {s : State}
    (h : ∀ p, timeoutOf (s.pair p).desc (s.pair p).est f = (s.pair p).timeout) :
    setFactor f s = s.modVrd fun v => { v with factor := f } := by
  have hstep (p : PairIx) : recomputeT p (s.modVrd fun v => { v with factor := f })
      = s.modVrd fun v => { v with factor := f } := if_pos (h p)
  unfold setFactor
  generalize allPairs = l
  induction l with
  | nil => rfl
  | cons p l ih => rw [List.foldl_cons, hstep, ih]

/-! ### Promotions in FAULT (R94, R95, R133) -/

/-- The promotion of a pair, if it is pending, while the verdict is FAULT. -/
def promoteStep (s : State) (p : PairIx) : State := if (s.pair p).hev.promotionPending then failInFault p s else s

theorem promoteInFault_foldl (s : State) : promoteInFault s = allPairs.foldl promoteStep s := rfl

theorem promoteStep_at (s : State) (p : PairIx) : AtPair p s (promoteStep s p) := by
  unfold promoteStep; split
  · exact failInFault_at p s
  · exact .refl p s

theorem markFailed_pair (p : PairIx) (s : State) : (markFailed p s).pair p = failedPair (s.pair p) :=
  modPair_same s p _

theorem markFailed_posted (p : PairIx) (s : State) : PostedAt (pairSource p) .failed s (markFailed p s) :=
  (post_posted (s.modPair p _) (pairSource p) .failed).1

theorem joinInFault_iar (m : Trigger) (s : State) : (joinInFault m s).iar = s.iar := by
  unfold joinInFault; split <;> rfl

theorem failInFault_here (p : PairIx) (s : State) : (failInFault p s).here p = (markFailed p s).here p := by
  unfold failInFault; split
  · rw [State.here, joinInFault_pair, State.source, joinInFault_iar]; rfl
  · rfl

/-- Of the Verdict Unit only the set and the trigger count have changed. -/
def TriggersOnly (v w : Vrd) : Prop :=
  w = { v with triggers := w.triggers, counters := { v.counters with triggers := w.counters.triggers } }

theorem TriggersOnly.trans {u v w : Vrd} (h : TriggersOnly u v) (k : TriggersOnly v w) : TriggersOnly u w := by
  unfold TriggersOnly at *; rw [k, h]

theorem joinInFault_triggersOnly (m : Trigger) (s : State) : TriggersOnly s.vrd (joinInFault m s).vrd := by
  unfold joinInFault; split <;> rfl

theorem promoteStep_triggersOnly (s : State) (p : PairIx) : TriggersOnly s.vrd (promoteStep s p).vrd := by
  have hmark : TriggersOnly s.vrd (markFailed p s).vrd := by rw [markFailed_vrd]; rfl
  unfold promoteStep failInFault
  split
  · split
    · exact hmark.trans (joinInFault_triggersOnly _ _)
    · exact hmark
  · rfl

theorem promoteInFault_triggersOnly (s : State) : TriggersOnly s.vrd (promoteInFault s).vrd :=
  foldl_keeps (P := fun t : State => TriggersOnly s.vrd t.vrd) (fun t p h => h.trans (promoteStep_triggersOnly t p))
    allPairs rfl

theorem promoteStep_stamp (s : State) (p : PairIx) : (promoteStep s p).stamp = s.stamp := by
  unfold promoteStep; split
  · rw [failInFault_only s p]
  · rfl

/-- Each pending pair has become FAILED and its cause is posted, and the others with their sources are as they were. -/
theorem promoteInFault_pendingFailed (s : State) : PendingFailed s (promoteInFault s) := by
  intro p
  obtain ⟨t, hstamp, hpre, hpost⟩ := foldl_here (P := fun t => t.stamp = s.stamp) promoteStep_at
    (fun t r h => (promoteStep_stamp t r).trans h) allPairs_nodup (mem_allPairs p) (s := s) rfl
  rw [← promoteInFault_foldl] at hpost
  have hpair : t.pair p = s.pair p := pair_of_here hpre
  have hsource : t.source (pairSource p) = s.source (pairSource p) := source_of_here hpre
  split
  · next hpending =>
    rw [promoteStep, if_pos (by rw [hpair]; exact hpending), failInFault_here] at hpost
    exact ⟨by rw [pair_of_here hpost, markFailed_pair, hpair],
      (markFailed_posted p t).congr hsource.symm (source_of_here hpost) hstamp.symm⟩
  · next hpending =>
    rw [promoteStep, if_neg (by rw [hpair]; exact hpending), hpre] at hpost
    exact ⟨pair_of_here hpost, source_of_here hpost⟩

theorem promoteInFault_source (s : State) {j : SourceIx} (hj : ∀ p, j ≠ pairSource p) :
    (promoteInFault s).source j = s.source j :=
  foldl_source promoteStep_at allPairs hj s

/-! ### The set and the trigger count at the promotions (R131) -/

/-- What a promotion does to the set and the trigger count. -/
theorem promoteStep_triggers (s : State) (p : PairIx) :
    (promoteStep s p).vrd.triggers = (if promotesTrigger s p then s.vrd.triggers.insert (.pair p) else s.vrd.triggers)
      ∧ (promoteStep s p).vrd.counters.triggers
        = (if promotesTrigger s p then satInc s.vrd.counters.triggers else s.vrd.counters.triggers) := by
  unfold promoteStep failInFault promotesTrigger joinInFault
  rw [markFailed_vrd]
  cases (s.pair p).hev.promotionPending <;> cases (s.pair p).desc.fence <;> cases s.vrd.triggers.has (.pair p) <;>
    simp

/-- A promotion at one pair does not bear on whether another's trigger would join. -/
theorem promotesTrigger_step (s : State) {p r : PairIx} (h : r ≠ p) :
    promotesTrigger (promoteStep s p) r = promotesTrigger s r := by
  have hhas : (promoteStep s p).vrd.triggers.has (.pair r) = s.vrd.triggers.has (.pair r) := by
    rw [(promoteStep_triggers s p).1]
    split
    · simp [TriggerSet.has_insert, h]
    · rfl
  rw [promotesTrigger, promotesTrigger, (promoteStep_at s p).pairs r h, hhas]

theorem promotes_has {l : List PairIx} (hl : l.Nodup) (s : State) (k : Trigger) :
    (l.foldl promoteStep s).vrd.triggers.has k = true
      ↔ s.vrd.triggers.has k = true ∨ ∃ p ∈ l, k = .pair p ∧ promotesTrigger s p = true := by
  induction l generalizing s with
  | nil => simp
  | cons a l ih =>
    obtain ⟨ha, hl⟩ := List.nodup_cons.mp hl
    have hlater : ∀ p ∈ l, promotesTrigger (promoteStep s a) p = promotesTrigger s p :=
      fun p hp => promotesTrigger_step s fun e => ha (e ▸ hp)
    have hfirst : (promoteStep s a).vrd.triggers.has k = true
        ↔ s.vrd.triggers.has k = true ∨ k = .pair a ∧ promotesTrigger s a = true := by
      rw [(promoteStep_triggers s a).1]
      split
      · next h => simp [TriggerSet.has_insert, h]
      · next h => simp [h]
    have hrest : (∃ p ∈ l, k = .pair p ∧ promotesTrigger (promoteStep s a) p = true)
        ↔ ∃ p ∈ l, k = .pair p ∧ promotesTrigger s p = true :=
      exists_congr fun p => and_congr_right fun hp => by rw [hlater p hp]
    rw [List.foldl_cons, ih hl, hfirst, hrest]
    simp only [List.mem_cons, or_and_right, exists_or, exists_eq_left]
    exact or_assoc

theorem promotes_count {l : List PairIx} (hl : l.Nodup) (s : State) :
    (l.foldl promoteStep s).vrd.counters.triggers.toNat
      = min 65535 (s.vrd.counters.triggers.toNat + (l.filter (promotesTrigger s)).length) := by
  induction l generalizing s with
  | nil => have := s.vrd.counters.triggers.isLt; simp; omega
  | cons a l ih =>
    obtain ⟨ha, hl⟩ := List.nodup_cons.mp hl
    have hlater : l.filter (promotesTrigger (promoteStep s a)) = l.filter (promotesTrigger s) :=
      List.filter_congr fun p hp => promotesTrigger_step s fun e => ha (e ▸ hp)
    rw [List.foldl_cons, ih hl, hlater, (promoteStep_triggers s a).2, List.filter_cons]
    split
    · rw [satInc_toNat, List.length_cons]; omega
    · rfl

/-! ### The entry to FAULT (R133) -/

/-- FAULT entered by a trigger, before a hold-off ends. -/
def faultEntered (m : Trigger) (s : State) : State :=
  post boardSource .boardFault (s.modVrd fun v =>
    { v with
      verdict := .fault
      triggers := v.triggers.insert m
      origin := some { trigger := m, clock := s.clock, stamp := s.stamp }
      counters := { v.counters with faults := satInc v.counters.faults } })

theorem enterFault_holdoff {m : Trigger} {s : State} {h : HoldOff} (hv : s.vrd.verdict = .holdoff h) :
    enterFault m s = promoteInFault (setFactor 1 (faultEntered m s)) := by
  unfold enterFault
  simp only [hv]
  rfl

theorem enterFault_normal {m : Trigger} {s : State} (hv : s.vrd.verdict = .normal) :
    enterFault m s = faultEntered m s := by
  unfold enterFault
  simp only [hv]
  rfl

/-- The set and F in FAULT, before the promotions. -/
theorem faultFactored_vrd (m : Trigger) (s : State) : (setFactor 1 (faultEntered m s)).vrd = { s.vrd with
    verdict := .fault, triggers := s.vrd.triggers.insert m, factor := 1
    origin := some { trigger := m, clock := s.clock, stamp := s.stamp }
    counters := { s.vrd.counters with faults := satInc s.vrd.counters.faults } } := by
  rw [setFactor_vrd]; rfl

theorem faultFactored_promotes (m : Trigger) (s : State) (p : PairIx) :
    promotesTrigger (setFactor 1 (faultEntered m s)) p = (promotesTrigger s p && decide (m ≠ .pair p)) := by
  obtain ⟨hdesc, -, -, hpending, -⟩ := setFactor_pair 1 (faultEntered m s) p
  rw [promotesTrigger, hdesc, hpending, faultFactored_vrd, TriggerSet.has_insert, promotesTrigger]
  by_cases hm : m = .pair p
  · simp [hm]
  · simp [hm, Ne.symm hm]; rfl

end Sys2Proof.Machine
end

/-! ## A trigger begins to stand, and the channel clock monitor -/
section

namespace Sys2Proof.Machine

/-! ### FAULT from HOLDOFF (R133) -/

section
variable (m : Trigger) (s : State)

theorem faultEntered_pair (p : PairIx) : (faultEntered m s).pair p = s.pair p := rfl

theorem faultEntered_stamp : (faultEntered m s).stamp = s.stamp := rfl

theorem faultEntered_source {j : SourceIx} (h : j ≠ boardSource) : (faultEntered m s).source j = s.source j :=
  modSource_other (s.modVrd _) h _

/-- The state of FAULT from HOLDOFF: every T recomputed with F 1, every pending pair promoted. -/
def faultReached : State := promoteInFault (setFactor 1 (faultEntered m s))

theorem faultReached_triggersOnly : TriggersOnly (setFactor 1 (faultEntered m s)).vrd (faultReached m s).vrd :=
  promoteInFault_triggersOnly _

/-- The Verdict Unit in FAULT from HOLDOFF. -/
theorem faultReached_vrd : (faultReached m s).vrd = { s.vrd with
    verdict := .fault, factor := 1, triggers := (faultReached m s).vrd.triggers
    origin := some { trigger := m, clock := s.clock, stamp := s.stamp }
    counters := { s.vrd.counters with
      faults := satInc s.vrd.counters.faults, triggers := (faultReached m s).vrd.counters.triggers } } := by
  have h := faultReached_triggersOnly m s
  rw [faultFactored_vrd] at h
  generalize faultReached m s = t at h ⊢
  exact h

theorem faultReached_frame : faultReached m s
    = { s with iar := (faultReached m s).iar, pairs := (faultReached m s).pairs, vrd := (faultReached m s).vrd } := by
  have h : VerdictOnly (faultEntered m s) (faultReached m s) :=
    (setFactor_only (faultEntered m s) 1).trans (promoteInFault_only _)
  generalize faultReached m s = t at h ⊢
  rw [h]
  rfl

theorem faultReached_thresholds : (faultReached m s).iar.thresholdA = s.iar.thresholdA
    ∧ (faultReached m s).iar.thresholdB = s.iar.thresholdB := by
  have h : VerdictOnly (faultEntered m s) (faultReached m s) :=
    (setFactor_only (faultEntered m s) 1).trans (promoteInFault_only _)
  generalize faultReached m s = t at h ⊢
  rw [h]
  exact ⟨rfl, rfl⟩

/-- The sources that no pair owns are those of the entry to FAULT. -/
theorem faultReached_source {j : SourceIx} (hj : ∀ p, j ≠ pairSource p) :
    (faultReached m s).source j = (faultEntered m s).source j :=
  (promoteInFault_source _ hj).trans (setFactor_source 1 _ hj)

theorem faultReached_posted : PostedAt boardSource .boardFault s (faultReached m s) := by
  have h : PostedAt boardSource .boardFault s (faultEntered m s) := (post_posted _ boardSource .boardFault).1
  exact h.congr rfl (faultReached_source m s boardSource_not_pair) rfl

theorem faultReached_has (k : Trigger) : (faultReached m s).vrd.triggers.has k = true
    ↔ s.vrd.triggers.has k = true ∨ k = m ∨ ∃ p : PairIx, k = .pair p ∧ promotesTrigger s p = true := by
  have h := promotes_has allPairs_nodup (setFactor 1 (faultEntered m s)) k
  rw [← promoteInFault_foldl] at h
  rw [faultReached, h]
  simp only [faultFactored_vrd, TriggerSet.has_insert, faultFactored_promotes, mem_allPairs, true_and, Bool.or_eq_true,
    Bool.and_eq_true, decide_eq_true_eq, or_assoc]
  refine or_congr_right ⟨?_, ?_⟩
  · rintro (h | ⟨p, hk, hp, -⟩)
    · exact .inl h
    · exact .inr ⟨p, hk, hp⟩
  · rintro (h | ⟨p, hk, hp⟩)
    · exact .inl h
    · by_cases hm : k = m
      · exact .inl hm
      · exact .inr ⟨p, hk, hp, fun e => hm (hk.trans e.symm)⟩

theorem faultReached_count : (faultReached m s).vrd.counters.triggers.toNat
    = min 65535 (s.vrd.counters.triggers.toNat
        + (allPairs.filter fun p => promotesTrigger s p && decide (m ≠ .pair p)).length) := by
  have h := promotes_count allPairs_nodup (setFactor 1 (faultEntered m s))
  rw [← promoteInFault_foldl, faultFactored_vrd, funext (faultFactored_promotes m s)] at h
  rw [faultReached, h]

theorem faultReached_pair (p : PairIx) : ((faultReached m s).pair p).desc = (s.pair p).desc
    ∧ ((faultReached m s).pair p).est = (s.pair p).est
    ∧ ((faultReached m s).pair p).timeout = timeoutOf (s.pair p).desc (s.pair p).est 1
    ∧ ((faultReached m s).pair p).hev.promotionPending = false
    ∧ ((s.pair p).hev.promotionPending = true → ((faultReached m s).pair p).health = .failed)
    ∧ ((s.pair p).hev.promotionPending = false → (s.pair p).health ≠ .draining →
        ((faultReached m s).pair p).health = (s.pair p).health) := by
  obtain ⟨hdesc, hest, htimeout, hpending, hhealth⟩ := setFactor_pair 1 (faultEntered m s) p
  rw [faultEntered_pair] at hdesc hest htimeout hpending hhealth
  have hpromoted : PendingFailed (setFactor 1 (faultEntered m s)) (faultReached m s) := promoteInFault_pendingFailed _
  generalize setFactor 1 (faultEntered m s) = u at *
  generalize faultReached m s = t at *
  have h := hpromoted p
  rw [hpending] at h
  by_cases hp : (s.pair p).hev.promotionPending = true
  · rw [if_pos hp] at h
    rw [h.1, failedPair]
    exact ⟨hdesc, hest, htimeout, rfl, fun _ => rfl, fun k => absurd (hp.symm.trans k) (by decide)⟩
  · rw [if_neg hp] at h
    rw [h.1, hpending]
    exact ⟨hdesc, hest, htimeout, Bool.eq_false_iff.mpr hp, fun k => absurd k hp, fun _ => hhealth⟩

/-- With no T to change, the pairs and their sources are what the promotions make of them. -/
theorem faultReached_pendingFailed
    (h : ∀ p : PairIx, timeoutOf (s.pair p).desc (s.pair p).est 1 = (s.pair p).timeout) :
    PendingFailed s (faultReached m s) := by
  have hpromoted : PendingFailed (setFactor 1 (faultEntered m s)) (faultReached m s) := promoteInFault_pendingFailed _
  rw [setFactor_unchanged (f := 1) (s := faultEntered m s) fun p => by rw [faultEntered_pair]; exact h p] at hpromoted
  generalize faultReached m s = t at *
  intro p
  have hp := hpromoted p
  simpa only [PostedAt, modVrd_pair, modVrd_source, modVrd_stamp, faultEntered_pair, faultEntered_stamp,
    faultEntered_source m s (boardSource_not_pair p).symm] using hp

theorem faultReached_faultFromHoldoff : FaultFromHoldoff m s (faultReached m s) := by
  have hvrd := faultReached_vrd m s
  obtain ⟨hA, hB⟩ := faultReached_thresholds m s
  refine ⟨?_, ?_, ?_, faultReached_posted m s, faultReached_has m s, faultReached_count m s, faultReached_pair m s,
    fun j hj hpair => ?_, hA, hB, faultReached_pendingFailed m s⟩
  · exact (faultReached_frame m s).trans (by rw [← hvrd])
  · rw [bflt, hvrd]; rfl
  · rw [drivingCalm, hvrd]; rfl
  · exact (faultReached_source m s hpair).trans (faultEntered_source m s hj)

/-! ### A trigger begins to stand (R131) -/

theorem faultEntered_posted : Posted boardSource .boardFault s (faultEntered m s) := post_posted _ _ _

theorem joinInFault_new {m : Trigger} {s : State} (h : s.vrd.triggers.has m = false) : joinInFault m s
    = s.modVrd fun v =>
      { v with triggers := v.triggers.insert m, counters := { v.counters with triggers := satInc v.counters.triggers } } := by
  rw [joinInFault, if_neg (by simp [h])]

theorem has_insert_iff (t : TriggerSet) (k : Trigger) : (t.insert m).has k = true ↔ t.has k = true ∨ k = m := by
  rw [TriggerSet.has_insert, Bool.or_eq_true, decide_eq_true_eq]

/-- The join of a trigger, in each state of the verdict. -/
theorem joinTrigger_joins : TriggerJoins m s (joinTrigger m s) := by
  refine ⟨fun h => if_pos h, fun h hv => ?_, fun h hv => ?_, fun k h hv => ?_⟩
  · rw [joinTrigger, if_neg (by simp [h]), if_pos hv, joinInFault_new h]
    exact ⟨has_insert_iff m s.vrd.triggers, rfl⟩
  · rw [joinTrigger, if_neg (by simp [h]), if_neg (by simp [hv]), enterFault_normal hv]
    exact ⟨has_insert_iff m s.vrd.triggers, rfl, rfl, rfl, faultEntered_posted m s⟩
  · rw [joinTrigger, if_neg (by simp [h]), if_neg (by simp [hv]), enterFault_holdoff hv]
    exact faultReached_faultFromHoldoff m s

end

/-! ### The stop of the channel clock (R10, R15, R120) -/

/-- The monitor at a dead tick in RUNNING. -/
def clockStopped (s : State) : State :=
  { s with tap := { s.tap with presence := .stopped, absence := if s.tap.brstAsserted then 0 else 1 } }

/-- The port and the PRB once a line at the port is ABORTED. -/
def lineAborted (s : State) : State :=
  { s with
    tap := { s.tap with port := { s.tap.port with phase := .releasing, line := none } }
    echo := { s.echo with prb := .idle } }

theorem exec_clockStop {s : State} (h : s.tap.presence = .running) :
    exec .clockStop s = .next (prbTake (abortByClock (clockStopped s))) := by
  simp only [exec, execClockStop, h, if_true]
  rfl

section
variable {s : State} {a : LineAddr} {l : LineInHand}

theorem abortByClock_no_line (h : s.tap.port.line = none) : abortByClock s = s := by
  simp [abortByClock, ProbePort.aborts, h]

theorem aborts_line (h : s.tap.port.line = some a) : s.tap.port.aborts = true := by
  rw [ProbePort.aborts, h]; rfl

theorem abort_line (h : s.tap.port.line = some a) :
    (s.modPort ProbePort.abort).modEcho (fun e => { e with prb := .idle }) = lineAborted s := by
  have habort : s.tap.port.abort = { s.tap.port with phase := .releasing, line := none } := if_pos (aborts_line h)
  rw [State.modPort, State.modTap, habort]
  rfl

theorem abortByClock_discarded (h : s.tap.port.line = some a) (hprb : s.echo.prb = .reading l)
    (hl : l.discard = true) : abortByClock s = lineAborted s := by
  rw [abortByClock, if_pos (aborts_line h)]
  simp only [abort_line h, hprb, hl, if_true]

/-- A line that is not discarded starves. -/
theorem abortByClock_starves (h : s.tap.port.line = some a)
    (hprb : s.echo.prb = .requesting l ∨ s.echo.prb = .reading l) (hl : s.echo.prb = .reading l → l.discard = false) :
    abortByClock s = starveLine l (lineAborted s) := by
  rw [abortByClock, if_pos (aborts_line h)]
  rcases hprb with hprb | hprb
  · simp only [abort_line h, hprb]
  · simp only [abort_line h, hprb, hl hprb, Bool.false_eq_true, if_false]

theorem starveLine_single {b : LineAddr} (hp : l.purpose = .singleProbe) (hs : s.echo.single = .busy b) :
    starveLine l s = { s with echo := { s.echo with single := .done b .starved } } := by
  simp [starveLine, hp, endSingle, hs, State.modEcho]

def EchoCounters.addStarved (c : EchoCounters) : EchoCounters := { c with starved := satInc c.starved }

/-- The current entry starves: it is retired, and the finding goes against its pair (R113, R120). -/
theorem starveLine_entry {e : EchoEntry} {before after : List EchoEntry} (hp : l.purpose = .currentEntry)
    (hprb : s.echo.prb = .idle) (hs : s.echo.entries = before ++ e :: after) (he : e.status = .probing)
    (hb : ∀ f ∈ before, f.status ≠ .probing) :
    starveLine l s = echoFinding e.pair .starved
      { s with echo := { s.echo with entries := before ++ after, counters := s.echo.counters.addStarved } } := by
  have hcount := countEcho_retire EchoCounters.addStarved hs (apart_of_probing he hb)
  rw [retiredAs_idle _ _ he hprb] at hcount
  simp only [starveLine, hp, currentEntry_first hs he hb]
  exact congrArg (echoFinding e.pair .starved) hcount

end

/-! ### The loss of the channel and the return (R10, R11, R132) -/

theorem lossDue_iff {s : State} (h1 : s.tap.presence = .stopped) (h2 : s.vrd.settings.channelLossLimit ≠ 0)
    (h3 : s.vrd.settings.channelLossLimit ≤ s.tap.absence) : lossDue s = true := by
  simp [lossDue, h1, h2, h3]

/-- The monitor LOST, and the loss posted and counted. -/
def lossCounted (s : State) : State :=
  post boardSource .channelLost ((s.modTap fun t => { t with presence := .lost }).modVrd fun v =>
    { v with counters := { v.counters with channelLosses := satInc v.counters.channelLosses } })

theorem enterLost_eq (s : State) :
    enterLost s = if s.vrd.settings.fenceOnLoss then joinTrigger .channelLoss (lossCounted s) else lossCounted s := rfl

/-- The monitor RUNNING again and the channel-loss trigger gone. -/
def channelBack (s : State) : State :=
  { s with
    tap := { s.tap with presence := .running, absence := 0 }
    vrd := { s.vrd with triggers := { s.vrd.triggers with channelLoss := false } } }

theorem exec_returnAfterLoss {s : State} (h : s.tap.presence = .lost) : exec .returnAfterLoss s
    = .next (if s.tap.brstAsserted then channelBack s else endDiscontinuity (startDiscontinuity (channelBack s))) := by
  simp only [exec, execReturnAfterLoss, h, if_true]
  rfl

/-- What CLOCK_STOP does to a line at the port. -/
theorem clockStop_aborts {s : State} {h : LineInHand} {a : LineAddr} (hrun : s.tap.presence = .running)
    (hline : s.tap.port.line = some a) (hprb : s.echo.prb = .requesting h ∨ s.echo.prb = .reading h)
    (hq : s.echo.probeQueue = []) :
    (s.echo.prb = .reading h → h.discard = true → s.echo.single.isBusy = false → currentEntry s = none →
      exec .clockStop s = .next (lineAborted (clockStopped s)))
    ∧ ((s.echo.prb = .reading h → h.discard = false) →
      (∀ b, h.purpose = .singleProbe → s.echo.single = .busy b → currentEntry s = none →
        exec .clockStop s = .next { lineAborted (clockStopped s) with echo := { s.echo with
          prb := .idle, single := .done b .starved } })
      ∧ ∀ before e after, h.purpose = .currentEntry → s.echo.single.isBusy = false →
        s.echo.entries = before ++ e :: after → e.status = .probing →
        (∀ f ∈ before ++ after, f.status = .watching) →
        exec .clockStop s = .next (echoFinding e.pair .starved { lineAborted (clockStopped s) with echo := { s.echo with
          prb := .idle, entries := before ++ after, counters := s.echo.counters.addStarved } })) := by
  rw [exec_clockStop hrun]
  refine ⟨fun hread hdis hsingle hcur => ?_, fun hdis => ?_⟩
  · rw [abortByClock_discarded (s := clockStopped s) hline hread hdis, prbTake_without_work]
    · exact hsingle
    · exact hcur
    · exact hq
  · rw [abortByClock_starves (s := clockStopped s) hline hprb hdis]
    refine ⟨fun b hp hsingle hcur => ?_, fun before e after hp hsingle hs he hwatch => ?_⟩
    · rw [starveLine_single (s := lineAborted (clockStopped s)) hp hsingle, prbTake_without_work rfl]
      · rfl
      · exact hcur
      · exact hq
    · have hnot : ∀ f ∈ before ++ after, f.status ≠ .probing := fun f hf => by rw [hwatch f hf]; decide
      rw [starveLine_entry (s := lineAborted (clockStopped s)) hp rfl hs he
        fun f hf => hnot f (List.mem_append_left _ hf), prbTake_without_work]
      · rfl
      · rw [echoFinding_echo]; exact hsingle
      · exact rest_not_probing hnot (by rw [echoFinding_echo])
      · rw [echoFinding_echo]; exact hq

/-- Settles O27: the stop with its aborted line, the loss with its trigger, the resume, and the return with its
discontinuity. -/
theorem channelClockMonitor : Obligations.ChannelClockMonitor := by
  intro s
  refine ⟨fun hrun hline hset => ?_, fun h a hrun hline hprb hq => ?_, fun hstop hnz hlim => ?_, fun hstop => ?_,
    fun hlost => ?_⟩
  · rw [exec_clockStop hrun, abortByClock_no_line (s := clockStopped s) hline, prbTake_kept hset] <;> rfl
  · obtain ⟨hdiscarded, hstarves⟩ := clockStop_aborts hrun hline hprb hq
    refine ⟨hdiscarded, fun hdis => ?_⟩
    obtain ⟨hsingle, hentry⟩ := hstarves hdis
    exact ⟨hsingle, fun before e after hp hbusy hs he hwatch =>
      ⟨_, hentry before e after hp hbusy hs he hwatch, echoFinding_frame _ _ _, echoFinding_found _ _ _⟩⟩
  · refine ⟨lossCounted s, enterLost s, ?_, post_posted _ _ _, rfl, ?_⟩
    · simp only [exec, execChannelLoss, lossDue_iff hstop hnz hlim, if_true]
    · rw [enterLost_eq]
      split
      · exact joinTrigger_joins _ _
      · rfl
  · simp only [exec, execClockResume, hstop, if_true]
    rfl
  · refine ⟨fun hb => ?_, fun hb => ⟨startDiscontinuity (channelBack s), _, ?_, startDiscontinuity_discontinued _,
      endDiscontinuity_restarted _⟩⟩
    · rw [exec_returnAfterLoss hlost, if_pos hb]; rfl
    · rw [exec_returnAfterLoss hlost, if_neg (by simp [hb])]

end Sys2Proof.Machine
end

/-! ## Commits: the record checks, the sequence check and the Commit Queue -/
section

namespace Sys2Proof.Machine

/-! ### The checks before the sequence check (R21, R29, R31, Table 3.3) -/

/-- A kind byte that a role takes (Table 3.3). -/
def kindFits (r : Role) (b : Byte) : Bool :=
  match r with
  | .request => decide (b = 1)
  | .completion => decide (b = 1 ∨ b = 2 ∨ b = 3)
  | .pulse => decide (b = 4)

/-- The kind that a fitting byte names (R21). -/
def kindNamed (b : Byte) : RecordKind :=
  if b = 1 then .work else if b = 2 then .quiesce else if b = 3 then .resume else .pulse

theorem expectedLap_eq (d : StreamDesc) (q : BitVec 32) : expectedLap d q
    = xor (decide (q.toNat / d.slotCount % 2 = 1)) (decide (d.lapPolarity = .inverted)) := by
  unfold expectedLap
  cases d.lapPolarity <;> simp

theorem dropCause_eq (d : StreamDesc) (slot : Nat) (h : Header) : dropCause d slot h =
    if h.marker ≠ d.marker then some .markerBad
    else if kindFits d.role h.kind = false then some .kindBad
    else if h.sequence.toNat % d.slotCount ≠ slot then some .slotMismatch
    else if h.lap ≠ expectedLap d h.sequence then some .lapStale
    else none := by
  rw [expectedLap_eq]; rfl

theorem kindFits_some {r : Role} {b : Byte} (h : kindFits r b = true) :
    kindOf b = some (kindNamed b) ∧ kindValid r (kindNamed b) = true := by
  cases r with
  | request =>
    obtain rfl : b = 1 := by simpa [kindFits] using h
    exact ⟨rfl, rfl⟩
  | completion =>
    obtain rfl | rfl | rfl : b = 1 ∨ b = 2 ∨ b = 3 := by simpa [kindFits] using h
    · exact ⟨rfl, rfl⟩
    · exact ⟨rfl, rfl⟩
    · exact ⟨rfl, rfl⟩
  | pulse =>
    obtain rfl : b = 4 := by simpa [kindFits] using h
    exact ⟨rfl, rfl⟩

theorem kindOf_cases {b : Byte} {k : RecordKind} (h : kindOf b = some k) :
    b = 1 ∧ k = .work ∨ b = 2 ∧ k = .quiesce ∨ b = 3 ∧ k = .resume ∨ b = 4 ∧ k = .pulse := by
  unfold kindOf at h
  split_ifs at h with h1 h2 h3 h4
  · exact .inl ⟨h1, (Option.some.inj h).symm⟩
  · exact .inr (.inl ⟨h2, (Option.some.inj h).symm⟩)
  · exact .inr (.inr (.inl ⟨h3, (Option.some.inj h).symm⟩))
  · exact .inr (.inr (.inr ⟨h4, (Option.some.inj h).symm⟩))

/-- A byte that does not fit its stream's role names no kind, or one that the role does not take. -/
theorem kindFits_none {r : Role} {b : Byte} {k : RecordKind} (h : kindFits r b = false) (hk : kindOf b = some k) :
    kindValid r k = false := by
  revert h
  obtain ⟨rfl, rfl⟩ | ⟨rfl, rfl⟩ | ⟨rfl, rfl⟩ | ⟨rfl, rfl⟩ := kindOf_cases hk <;> cases r <;> decide

/-- The record that passes the checks before the sequence check (R34). -/
def passedRecord (n : StreamIx) (s : State) (a : Assembly) (h : Header) : Record :=
  recordOf n s.clock a h (kindNamed h.kind)

/-- A commit on which a check fails drops its record. -/
theorem commitRecord_drops {n : StreamIx} {s : State} {a : Assembly} {h : Header} {c : Cause}
    (hc : dropCause (s.stream n).desc a.slot h = some c) : commitRecord n a h s = dropRecord n c s := by
  rw [dropCause_eq] at hc
  rw [commitRecord]
  dsimp only
  split
  · next hm => rw [if_pos hm] at hc; cases hc; rfl
  · next hm =>
    rw [if_neg hm] at hc
    by_cases hfits : kindFits (s.stream n).desc.role h.kind = true
    · obtain ⟨hk, hv⟩ := kindFits_some hfits
      rw [if_neg (by simp [hfits])] at hc
      simp only [hk, hv, not_true, if_false]
      split
      · next hs => rw [if_pos hs] at hc; cases hc; rfl
      · next hs =>
        rw [if_neg hs] at hc
        split
        · next hl => rw [if_pos hl] at hc; cases hc; rfl
        · next hl => rw [if_neg hl] at hc; cases hc
    · rw [if_pos (by simpa using hfits)] at hc
      cases hc
      split
      · rfl
      · next k hk => rw [if_pos (by simp [kindFits_none (by simpa using hfits) hk])]

/-- A commit that passes them is left to the sequence check. -/
theorem commitRecord_passes {n : StreamIx} {s : State} {a : Assembly} {h : Header}
    (hc : dropCause (s.stream n).desc a.slot h = none) :
    commitRecord n a h s =
      match checkSequence (s.stream n).desc.reorderSpan (s.stream n).seq h.sequence with
      | .stale => dropRecord n .seqStale s
      | .accepted q => acceptRecord (passedRecord n s a h) q s
      | .gap q g => acceptRecord { passedRecord n s a h with gap := some g } q (countGap n g s) := by
  rw [dropCause_eq] at hc
  by_cases hm : h.marker ≠ (s.stream n).desc.marker
  · rw [if_pos hm] at hc; cases hc
  rw [if_neg hm] at hc
  by_cases hfits : kindFits (s.stream n).desc.role h.kind = false
  · rw [if_pos hfits] at hc; cases hc
  rw [if_neg hfits] at hc
  by_cases hs : h.sequence.toNat % (s.stream n).desc.slotCount ≠ a.slot
  · rw [if_pos hs] at hc; cases hc
  rw [if_neg hs] at hc
  by_cases hl : h.lap ≠ expectedLap (s.stream n).desc h.sequence
  · rw [if_pos hl] at hc; cases hc
  obtain ⟨hk, hv⟩ := kindFits_some (Bool.not_eq_false _ ▸ hfits)
  rw [commitRecord]
  simp only [if_neg hm, hk, hv, not_true, if_false, if_neg hs, if_neg hl]
  rfl

/-! ### A record dropped, accepted or lost (R30, R32, R35, R36) -/

theorem dropRecord_dropped (n : StreamIx) (c : Cause) (s : State) :
    Dropped n (s.stream n) c s (dropRecord n c s) :=
  ⟨post_posted (s.modStream n _) _ _, rfl, modStream_same s n _⟩

/-- The stream after its record was accepted, before the queue is asked (R32, R35). -/
def Stream.accepting (now : Clock) (q : SeqState) (x : Stream) : Stream :=
  { x with
    seq := q, lastAccepted := now, silent := false
    counters := { x.counters with accepted := x.counters.accepted + 1 } }

theorem streamSource_ne_commitSource (n : StreamIx) : streamSource n ≠ commitSource := by
  revert n; decide

section
variable {r : Record} {q : SeqState} {s : State}

/-- With room in the queue the record joins it, and the stream's overrun mark goes into the record (R36). -/
theorem acceptRecord_room (h : s.commitQueue.length < 4) :
    (acceptRecord r q s).iar = s.iar
      ∧ (acceptRecord r q s).commitQueue
        = s.commitQueue ++ [{ r with overrun := (s.stream r.stream).overrunPending }]
      ∧ (acceptRecord r q s).stream r.stream
        = { (s.stream r.stream).accepting r.commitTime q with overrunPending := false } := by
  have hroom : (s.modStream r.stream (Stream.accepting r.commitTime q)).commitQueue.length < Config.commitQueueSize := h
  rw [show acceptRecord r q s = offerRecord r (s.modStream r.stream (Stream.accepting r.commitTime q)) from rfl,
    offerRecord, if_pos hroom, modStream_same]
  exact ⟨rfl, rfl, (modStream_same _ _ _).trans (by rw [modStream_same])⟩

/-- With the queue full the record is lost (R36). -/
theorem acceptRecord_full (h : ¬ s.commitQueue.length < 4) :
    Posted commitSource .commitOverrun s (acceptRecord r q s)
      ∧ (acceptRecord r q s).commitQueue = s.commitQueue
      ∧ (acceptRecord r q s).stream r.stream
        = { (s.stream r.stream).accepting r.commitTime q with
            overrunPending := true
            counters := { ((s.stream r.stream).accepting r.commitTime q).counters with
              lost := satInc (s.stream r.stream).counters.lost } } := by
  have hfull : ¬ (s.modStream r.stream (Stream.accepting r.commitTime q)).commitQueue.length < Config.commitQueueSize := h
  rw [show acceptRecord r q s = offerRecord r (s.modStream r.stream (Stream.accepting r.commitTime q)) from rfl,
    offerRecord, if_neg hfull]
  exact ⟨post_posted (State.modStream _ _ _) _ _, rfl, (modStream_same _ _ _).trans (by rw [modStream_same]; rfl)⟩

theorem acceptRecord_accepted (hgap : r.gap = none) (hnow : r.commitTime = s.clock) :
    Accepted r.stream (s.stream r.stream) r q none s (acceptRecord r q s) := by
  have hsame : { r with gap := none } = r := by rw [← hgap]
  unfold Accepted
  dsimp only
  rw [← hnow]
  split
  · next h =>
    obtain ⟨hiar, hqueue, hstream⟩ := acceptRecord_room (r := r) (q := q) h
    exact ⟨hiar, by rw [hqueue, ← hgap], hstream⟩
  · next h => exact acceptRecord_full h

/-- A gap is counted and posted before the record is offered (R32). -/
theorem countGap_posted (n : StreamIx) (g : BitVec 32) (s : State) :
    Posted (streamSource n) .seqGap s (countGap n g s) := post_posted (s.modStream n _) _ _

theorem countGap_stream (n : StreamIx) (g : BitVec 32) (s : State) :
    (countGap n g s).stream n = { s.stream n with counters := { (s.stream n).counters with
      gaps := satInc (s.stream n).counters.gaps, gapTotal := (s.stream n).counters.gapTotal + g } } :=
  modStream_same s n _

theorem acceptRecord_gap (g : BitVec 32) (hnow : r.commitTime = s.clock) :
    Accepted r.stream (s.stream r.stream) r q (some g) s
      (acceptRecord { r with gap := some g } q (countGap r.stream g s)) := by
  have hposted := countGap_posted r.stream g s
  have hstream := countGap_stream r.stream g s
  unfold Accepted
  dsimp only
  rw [← hnow]
  split
  · next h =>
    obtain ⟨hiar, hqueue, hafter⟩ :=
      acceptRecord_room (r := { r with gap := some g }) (q := q) (s := countGap r.stream g s) h
    rw [hstream] at hqueue hafter
    refine ⟨?_, hqueue, hafter⟩
    simpa only [Posted, PostedAt, OtherSources, State.source, hiar] using hposted
  · next h =>
    obtain ⟨⟨hlost, hothers, hA, hB⟩, hqueue, hafter⟩ :=
      acceptRecord_full (r := { r with gap := some g }) (q := q) (s := countGap r.stream g s) h
    obtain ⟨hgap, hsources, hA', hB'⟩ := hposted
    rw [hstream] at hafter
    have hne := streamSource_ne_commitSource r.stream
    exact ⟨⟨hgap.congr rfl (hothers _ hne) rfl, hlost.congr (hsources _ hne.symm).symm rfl rfl,
      fun j h1 h2 => (hothers j h2).trans (hsources j h1), hA.trans hA', hB.trans hB'⟩, hqueue, hafter⟩

end

/-- A commit, as R29 to R36 give it. -/
theorem commitRecord_committed (n : StreamIx) (a : Assembly) (h : Header) (s : State) :
    Committed n (s.stream n) a h s (commitRecord n a h s) := by
  unfold Committed
  cases hc : dropCause (s.stream n).desc a.slot h with
  | some c =>
    rw [commitRecord_drops hc]
    exact dropRecord_dropped n c s
  | none =>
    rw [commitRecord_passes hc]
    cases checkSequence (s.stream n).desc.reorderSpan (s.stream n).seq h.sequence with
    | stale => exact dropRecord_dropped n .seqStale s
    | accepted q => exact acceptRecord_accepted (r := passedRecord n s a h) rfl rfl
    | gap q g => exact acceptRecord_gap (r := passedRecord n s a h) g rfl

end Sys2Proof.Machine
end

/-! ## Writes: the echo entry of the slot, its assembly, and what the write brings about -/
section

namespace Sys2Proof.Machine

/-! ### The assembly of a slot among those of its stream (R22) -/

/-- The assemblies `l` of a stream are `before`, that of the slot if there is one, and `after`; a slot without one has none
after it. -/
structure AroundSlot (slot : Nat) (before : List Assembly) (old : Option Assembly) (after l : List Assembly) : Prop where
  list : l = before ++ old.toList ++ after
  others : ∀ a ∈ before ++ after, a.slot ≠ slot
  here : ∀ a ∈ old, a.slot = slot
  last : old = none → after = []

namespace AroundSlot

variable {slot : Nat} {before after l : List Assembly} {old : Option Assembly} (h : AroundSlot slot before old after l)
include h

theorem find : findAssembly slot l = old := by
  have hbefore : ∀ a ∈ before, decide (a.slot = slot) = false := fun a ha =>
    decide_eq_false (h.others a (List.mem_append_left _ ha))
  rw [h.list]
  cases old with
  | none =>
    rw [h.last rfl, Option.toList_none, List.append_nil, List.append_nil]
    exact List.find?_eq_none.mpr fun a ha => by simpa using hbefore a ha
  | some a =>
    rw [List.append_assoc]
    exact find?_first after hbefore (decide_eq_true (h.here a rfl))

theorem free : freeAssembly slot l = before ++ after := by
  have hothers : (before ++ after).filter (fun a => decide (a.slot ≠ slot)) = before ++ after :=
    List.filter_eq_self.mpr fun a ha => decide_eq_true (h.others a ha)
  rw [List.filter_append] at hothers
  rw [h.list, freeAssembly, List.filter_append, List.filter_append, ← hothers]
  cases old with
  | none => simp
  | some a => simp [h.here a rfl]

/-- The assembly of the slot is put in its place, which is the last one when the slot had none. -/
theorem put {b : Assembly} (hb : b.slot = slot) : putAssembly b l = before ++ b :: after := by
  rw [putAssembly, hb, h.find]
  cases old with
  | none => simp [h.list, h.last rfl]
  | some a =>
    have hkept (k : List Assembly) (hk : ∀ x ∈ k, x.slot ≠ slot) :
        k.map (fun x => if x.slot = slot then b else x) = k :=
      (List.map_congr_left fun x hx => if_neg (hk x hx)).trans (List.map_id k)
    rw [Option.isSome_some, if_pos rfl, h.list, List.map_append, List.map_append,
      hkept before fun x hx => h.others x (List.mem_append_left _ hx),
      hkept after fun x hx => h.others x (List.mem_append_right _ hx)]
    simp [h.here a rfl]

end AroundSlot

/-- The assembly that a write to a slot is applied to: the slot's, or a new one (R22). -/
def baseAssembly (slot : Nat) (now : Clock) (old : Option Assembly) : Assembly :=
  match old with
  | some a => a
  | none => Assembly.fresh slot now

section
variable {d : StreamDesc} {now : Clock} {slot : Nat} {line : Fin 8} {data : LineData} {mask : ByteMask}
  {before after l : List Assembly} {old : Option Assembly}

/-- A write that enables nothing changes no assembly. -/
theorem writeAssemblies_nothing : writeAssemblies d now slot line data 0 l = (l, .none) := if_pos rfl

/-- A write that finds no assembly of its slot and no room for one (R22). -/
theorem writeAssemblies_full (h : AroundSlot slot before old after l) (hm : mask ≠ 0) (ho : old = none)
    (hfull : 4 ≤ before.length) : writeAssemblies d now slot line data mask l = (l, .full) := by
  have hlist : l = before := by rw [h.list, h.last ho, ho]; simp
  have hlen : Config.assembliesPerStream ≤ l.length := by rw [hlist]; exact hfull
  simp only [writeAssemblies, if_neg hm, h.find, ho, if_pos hlen]

/-- A write to a one-line slot (R27). -/
theorem writeAssemblies_oneLine (h : AroundSlot slot before old after l) (hm : mask ≠ 0)
    (hroom : ¬ (old = none ∧ 4 ≤ before.length)) (hd : d.slotSize.lines = 1) :
    writeAssemblies d now slot line data mask l = (before ++ after, oneLineWrite now slot data mask) := by
  cases old with
  | none =>
    have hlist : l = before := by rw [h.list, h.last rfl]; simp
    have hlen : ¬ Config.assembliesPerStream ≤ l.length := by rw [hlist]; exact fun k => hroom ⟨rfl, k⟩
    simp only [writeAssemblies, if_neg hm, h.find, if_neg hlen, if_pos hd]
    rw [hlist, h.last rfl, List.append_nil]
  | some a => simp only [writeAssemblies, if_neg hm, h.find, if_pos hd, h.free]

/-- A write to a slot of more lines: what `applyWrite` leaves open of the slot stands in its place. -/
theorem writeAssemblies_apply {o : Option Assembly} {r : WriteResult} (h : AroundSlot slot before old after l)
    (hm : mask ≠ 0) (hroom : ¬ (old = none ∧ 4 ≤ before.length)) (hd : d.slotSize.lines ≠ 1)
    (happly : applyWrite d now line.1 data mask (baseAssembly slot now old)
      ((baseAssembly slot now old).writeLine line data mask) = (o, r)) (ho : ∀ b ∈ o, b.slot = slot) :
    writeAssemblies d now slot line data mask l = (before ++ (o.toList ++ after), r) := by
  cases old with
  | none =>
    have hlist : l = before := by rw [h.list, h.last rfl]; simp
    have hlen : ¬ Config.assembliesPerStream ≤ l.length := by rw [hlist]; exact fun k => hroom ⟨rfl, k⟩
    rw [baseAssembly] at happly
    simp only [writeAssemblies, if_neg hm, h.find, if_neg hlen, if_neg hd, happly]
    cases o with
    | none => simp [hlist, h.last rfl]
    | some b => simp [h.put (ho b rfl)]
  | some a =>
    rw [baseAssembly] at happly
    simp only [writeAssemblies, if_neg hm, h.find, if_neg hd, happly]
    cases o with
    | none => simp [h.free]
    | some b => simp [h.put (ho b rfl)]

/-! ### What a write does to its assembly (R23 to R27) -/

theorem headerBytes_all (h : mask.extractLsb' 0 16 = 0xFFFF#16) : headerBytes mask = .all := if_pos h

theorem headerBytes_none (h : mask.extractLsb' 0 16 = 0) : headerBytes mask = .none := by
  unfold headerBytes; simp [h]

theorem headerBytes_some (h : mask.extractLsb' 0 16 ≠ 0xFFFF#16) (h0 : mask.extractLsb' 0 16 ≠ 0) :
    headerBytes mask = .some := by
  unfold headerBytes
  dsimp only
  rw [if_neg h, if_neg h0]

theorem oneLineWrite_whole (h : mask.extractLsb' 0 16 = 0xFFFF#16) : oneLineWrite now slot data mask
    = .commit ((Assembly.fresh slot now).writeLine 0 data mask) (headerIn data) := by
  simp only [oneLineWrite, headerBytes_all h]
  rfl

theorem oneLineWrite_part (h : mask.extractLsb' 0 16 ≠ 0xFFFF#16) : oneLineWrite now slot data mask = .torn := by
  by_cases h0 : mask.extractLsb' 0 16 = 0
  · simp only [oneLineWrite, headerBytes_none h0]
  · simp only [oneLineWrite, headerBytes_some h h0]

variable {i : Nat} {a b : Assembly}

/-- HEADER mode: the header written whole commits (R25). -/
theorem applyWrite_commits (hi : i = 0) (h : mask.extractLsb' 0 16 = 0xFFFF#16) (hmode : d.commitMode = .header) :
    applyWrite d now i data mask a b = (none, .commit b (headerIn data)) := by
  simp only [applyWrite, if_pos hi, headerBytes_all h, hmode]
  rfl

/-- TAIL mode: a second header is TORN, with a fresh assembly in the place of the old (R26). -/
theorem applyWrite_renews (hi : i = 0) (h : mask.extractLsb' 0 16 = 0xFFFF#16) (hmode : d.commitMode ≠ .header)
    (ha : a.header.isSome = true) : applyWrite d now i data mask a b
      = (some { (Assembly.fresh a.slot now).writeLine 0 data mask with header := some (headerIn data) }, .torn) := by
  obtain ⟨x, hx⟩ := Option.isSome_iff_exists.mp ha
  have htail : d.commitMode = .tail := by cases hd : d.commitMode <;> simp_all
  simp only [applyWrite, if_pos hi, headerBytes_all h, htail, hx]
  rfl

/-- A header written in part is TORN (R24). -/
theorem applyWrite_tears (hi : i = 0) (h : mask.extractLsb' 0 16 ≠ 0xFFFF#16) (h0 : mask.extractLsb' 0 16 ≠ 0) :
    applyWrite d now i data mask a b = (none, .torn) := by
  simp only [applyWrite, if_pos hi, headerBytes_some h h0]

/-- The last line in TAIL mode commits with a header captured, and is TORN without (R26). -/
theorem applyWrite_last (hi : i ≠ 0) (hlast : i + 1 = d.slotSize.lines) (hmode : d.commitMode = .tail) :
    applyWrite d now i data mask a b
      = (none, match a.header with | some h => .commit b h | none => .torn) := by
  simp only [applyWrite, if_neg hi, if_pos hlast, hmode]
  cases a.header <;> rfl

/-- Every other write leaves the assembly open, with the header captured when it was written whole (R23, R26). -/
theorem applyWrite_stays
    (hcommit : ¬ (i = 0 ∧ mask.extractLsb' 0 16 = 0xFFFF#16 ∧ d.commitMode = .header))
    (hrenew : ¬ (i = 0 ∧ mask.extractLsb' 0 16 = 0xFFFF#16 ∧ a.header.isSome))
    (htear : ¬ (i = 0 ∧ mask.extractLsb' 0 16 ≠ 0xFFFF#16 ∧ mask.extractLsb' 0 16 ≠ 0))
    (hlast : ¬ (i ≠ 0 ∧ i + 1 = d.slotSize.lines ∧ d.commitMode = .tail)) :
    applyWrite d now i data mask a b
      = (some (if i = 0 ∧ mask.extractLsb' 0 16 = 0xFFFF#16 then { b with header := some (headerIn data) } else b),
        .none) := by
  by_cases hi : i = 0
  · by_cases h : mask.extractLsb' 0 16 = 0xFFFF#16
    · have hmode : d.commitMode = .tail := by
        cases hd : d.commitMode with
        | header => exact absurd ⟨hi, h, hd⟩ hcommit
        | tail => rfl
      have hheader : a.header = none := by
        cases ha : a.header with
        | none => rfl
        | some x => exact absurd ⟨hi, h, by rw [ha]; rfl⟩ hrenew
      simp only [applyWrite, if_pos hi, headerBytes_all h, hmode, hheader, if_pos (And.intro hi h)]
      rfl
    · have h0 : mask.extractLsb' 0 16 = 0 := by
        by_contra h0
        exact htear ⟨hi, h, h0⟩
      simp only [applyWrite, if_pos hi, headerBytes_none h0, if_neg fun k : i = 0 ∧ _ => h k.2]
  · have hno : ¬ (i = 0 ∧ mask.extractLsb' 0 16 = 0xFFFF#16) := fun k => hi k.1
    cases hmode : d.commitMode with
    | header => simp only [applyWrite, if_neg hi, hmode, if_neg hno]
    | tail =>
      have hnotLast : ¬ i + 1 = d.slotSize.lines := fun k => hlast ⟨hi, k, hmode⟩
      simp only [applyWrite, if_neg hi, hmode, if_neg hnotLast, if_neg hno]

end

/-! ### What a write brings about (R22 to R36) -/

/-- What the ASM makes of the result of a write on the stream `x`, its assemblies changed already. -/
def WriteOutcome (n : StreamIx) (x : Stream) (r : WriteResult) (s t : State) : Prop :=
  match r with
  | .none => t.commitQueue = s.commitQueue ∧ t.iar = s.iar ∧ t.stream n = x
  | .torn => Torn n x s t
  | .full => Posted (streamSource n) .assemblyFull s t ∧ t.commitQueue = s.commitQueue
      ∧ t.stream n = { x with counters := { x.counters with unassembled := satInc x.counters.unassembled } }
  | .commit a h => Committed n x a h s t

theorem asmWrite_outcome {n : StreamIx} {slot : Nat} {line : Fin 8} {data : LineData} {mask : ByteMask} {s : State}
    {l : List Assembly} {r : WriteResult} (hn : (s.stream n).enabled = true)
    (hres : writeAssemblies (s.stream n).desc s.clock slot line data mask (s.stream n).assemblies = (l, r)) :
    WriteOutcome n { s.stream n with assemblies := l } r s (asmWrite n slot line data mask s) := by
  have hstream : (s.modStream n fun x => { x with assemblies := l }).stream n = { s.stream n with assemblies := l } :=
    modStream_same s n _
  rw [asmWrite, if_pos hn]
  simp only [hres]
  cases r with
  | none => exact ⟨rfl, rfl, hstream⟩
  | torn =>
    exact ⟨post_posted (State.modStream n _ _) _ _, rfl, (modStream_same _ n _).trans (by rw [hstream])⟩
  | full =>
    exact ⟨post_posted (State.modStream n _ _) _ _, rfl, (modStream_same _ n _).trans (by rw [hstream])⟩
  | commit a h =>
    have hcommit := commitRecord_committed n a h (s.modStream n fun x => { x with assemblies := l })
    rw [hstream] at hcommit
    exact hcommit

theorem modStream_unchanged (s : State) (n : StreamIx) {f : Stream → Stream} (h : f (s.stream n) = s.stream n) :
    s.modStream n f = s := by
  have hv : vupd s.streams n f = s.streams := by
    simp only [vupd]
    exact (congrArg (s.streams.set n.1 · n.2) h).trans (Vector.set_getElem_self n.2)
  rw [State.modStream, hv]

/-- A write that enables nothing leaves the ASM as it was. -/
theorem asmWrite_nothing {n : StreamIx} {slot : Nat} {line : Fin 8} {data : LineData} {s : State} :
    asmWrite n slot line data 0 s = s := by
  unfold asmWrite
  split
  · simp only [writeAssemblies_nothing]
    exact modStream_unchanged s n rfl
  · rfl

/-! ### The echo entry of the slot (R114) -/

def EchoCounters.addOvertaken (c : EchoCounters) : EchoCounters := { c with overtaken := satInc c.overtaken }

/-- What the ECH does with a write to a slot of a stream (Table 2.2). -/
def writeAtEcho (n : StreamIx) (slot : Nat) (s : State) : State :=
  if (s.stream n).desc.role = .completion then overtake { stream := n, slot := slot } s else s

section
variable {n : StreamIx} {slot : Nat} {s : State}

/-- With no entry of the slot to overtake the write changes nothing at the ECH. -/
theorem writeAtEcho_nothing
    (h : (s.stream n).desc.role ≠ .completion ∨ ∀ e ∈ s.echo.entries, ¬ (e.stream = n ∧ e.slot = slot)) :
    writeAtEcho n slot s = s := by
  unfold writeAtEcho
  split
  · next hrole =>
    have hfind : findEcho { stream := n, slot := slot } s = none :=
      findEcho_none.mpr fun e he k => h.resolve_left (fun k => k hrole) e he (key_eq.mp k)
    simp only [overtake, hfind]
  · rfl

/-- The oldest entry of the slot is retired OVERTAKEN. -/
theorem writeAtEcho_overtakes {first rest : List EchoEntry} {e : EchoEntry}
    (hrole : (s.stream n).desc.role = .completion) (hs : s.echo.entries = first ++ e :: rest)
    (hfirst : ∀ f ∈ first, ¬ (f.stream = n ∧ f.slot = slot)) (he : e.stream = n) (he' : e.slot = slot) :
    writeAtEcho n slot s = retiredAs EchoCounters.addOvertaken e (first ++ rest) s := by
  subst he he'
  have hfind : findEcho { stream := e.stream, slot := e.slot } s = some e :=
    findEcho_first hs fun f hf k => hfirst f hf (key_eq.mp k)
  rw [writeAtEcho, if_pos hrole]
  simp only [overtake, hfind]
  exact countEcho_retire EchoCounters.addOvertaken hs (apart_of_slot hfirst)

/-- Whether the write overtakes an entry or not: the echo part and the port alone may change, and the PRB has nothing to take
afterwards. -/
theorem writeAtEcho_settled (hset : prbSettled s)
    (hrest : ∀ first e rest, s.echo.entries = first ++ e :: rest → e.stream = n → e.slot = slot →
      PrbRests e (first ++ rest) s) :
    (∃ port echo, writeAtEcho n slot s = { s with tap := { s.tap with port := port }, echo := echo })
      ∧ prbSettled (writeAtEcho n slot s) := by
  by_cases hwatched : (s.stream n).desc.role = .completion ∧ ∃ e, findEcho { stream := n, slot := slot } s = some e
  · obtain ⟨hrole, e, hfind⟩ := hwatched
    obtain ⟨hkey, first, rest, hs, hfirst⟩ := List.find?_eq_some_iff_append.mp hfind
    obtain ⟨he, he'⟩ := key_eq.mp (of_decide_eq_true hkey)
    have hnone : ∀ f ∈ first, ¬ (f.stream = n ∧ f.slot = slot) := fun f hf k => by
      simpa [key_eq.mpr k] using hfirst f hf
    rw [writeAtEcho_overtakes hrole hs hnone he he']
    exact ⟨⟨_, _, rfl⟩, afterRetire_settled hs hset (hrest first e rest hs he he') rfl rfl⟩
  · have hnothing : (s.stream n).desc.role ≠ .completion ∨ ∀ e ∈ s.echo.entries, ¬ (e.stream = n ∧ e.slot = slot) := by
      by_cases hrole : (s.stream n).desc.role = .completion
      · refine .inr fun e he k => hwatched ⟨hrole, Option.ne_none_iff_exists'.mp fun hfind => ?_⟩
        exact findEcho_none.mp hfind e he (key_eq.mpr k)
      · exact .inl hrole
    rw [writeAtEcho_nothing hnothing]
    exact ⟨⟨s.tap.port, s.echo, rfl⟩, hset⟩

end

/-! ### The write presented -/

/-- A presented write, counted, with the void mark that it sets. -/
def writeCounted (which : Nat) (b : InFlight) (s : State) : State :=
  { s with tap := { s.tap with
      writesInFlight := s.tap.writesInFlight.eraseIdx which, writeCount := s.tap.writeCount + 1
      port := s.tap.port.voidedBy b.line } }

theorem exec_writeTo {s : State} {which : Nat} {b : InFlight} {n : StreamIx} {slot : Nat} {line : Fin 8}
    (data : LineData) (enables : ByteMask) (hl : LookupHolds s) (h : WriteTo s which b n slot line)
    (hset : prbSettled s)
    (hrest : ∀ first e rest, s.echo.entries = first ++ e :: rest → e.stream = n → e.slot = slot →
      PrbRests e (first ++ rest) s) :
    exec (.writeDataComplete which data enables false) s = .next (asmWrite n slot line data
      (enables &&& sentBytes b.length) (writeAtEcho n slot (writeCounted which b s))) := by
  obtain ⟨hw, hb, hn, hslot, hline, ha⟩ := h
  have hc : classifyLine (writeTaken which b s).tap.lookup b.line = some { stream := n, slot := slot, line := line } :=
    classifyLine_inside hl hn hslot hline ha
  have hpresent : presentWrite b.line data (enables &&& sentBytes b.length) (writeTaken which b s)
      = asmWrite n slot line data (enables &&& sentBytes b.length)
          (writeAtEcho n slot (writeCounted which b s)) := by
    simp only [presentWrite, hc]
    rfl
  obtain ⟨-, hsettled⟩ := writeAtEcho_settled (s := writeCounted which b s) (prbSettled_congr rfl rfl hset) hrest
  have hframe := (asmWrite_only (writeAtEcho n slot (writeCounted which b s)) n slot line data
    (enables &&& sentBytes b.length)).frame
  rw [exec_write_presented hw hb, hpresent, prbTake_kept hsettled]
  · rw [hframe]
  · rw [hframe]

end Sys2Proof.Machine
end

/-! ## Writes to a slot: the whole step -/
section

namespace Sys2Proof.Machine

/-- The state after a write to a slot: what the ECH leaves of the echo part and the port, what the ASM leaves of the stream, the
queue and the sources, and nothing else changed. -/
theorem exec_writeTo_spec {s : State} {which : Nat} {b : InFlight} {n : StreamIx} {slot : Nat} {line : Fin 8}
    (data : LineData) (enables : ByteMask) (hl : LookupHolds s) (h : WriteTo s which b n slot line)
    (hset : prbSettled s)
    (hrest : ∀ first e rest, s.echo.entries = first ++ e :: rest → e.stream = n → e.slot = slot →
      PrbRests e (first ++ rest) s) :
    ∃ t, exec (.writeDataComplete which data enables false) s = .next t
      ∧ t = { s with
          tap := { s.tap with
            writesInFlight := s.tap.writesInFlight.eraseIdx which, writeCount := s.tap.writeCount + 1
            port := t.tap.port }
          echo := t.echo, streams := t.streams, commitQueue := t.commitQueue, iar := t.iar }
      ∧ OtherStreams n s t
      ∧ t.echo = (writeAtEcho n slot (writeCounted which b s)).echo
      ∧ t.tap.port = (writeAtEcho n slot (writeCounted which b s)).tap.port
      ∧ (enables &&& sentBytes b.length = 0 →
          t.streams = s.streams ∧ t.commitQueue = s.commitQueue ∧ t.iar = s.iar)
      ∧ ∀ l r, writeAssemblies (s.stream n).desc s.clock slot line data (enables &&& sentBytes b.length)
            (s.stream n).assemblies = (l, r) →
          WriteOutcome n { s.stream n with assemblies := l } r s t := by
  obtain ⟨-, -, hn, -⟩ := id h
  obtain ⟨⟨port, echo, hv⟩, -⟩ :=
    writeAtEcho_settled (s := writeCounted which b s) (prbSettled_congr rfl rfl hset) hrest
  have hexec := exec_writeTo data enables hl h hset hrest
  rw [hv] at hexec ⊢
  have honly := asmWrite_only { writeCounted which b s with
    tap := { (writeCounted which b s).tap with port := port }, echo := echo } n slot line data
    (enables &&& sentBytes b.length)
  have hframe := honly.frame
  refine ⟨_, hexec, ?_, honly.others, by rw [hframe], by rw [hframe], fun hm => ?_, fun l r hres => ?_⟩
  · rw [hframe]; rfl
  · rw [hm, asmWrite_nothing]
    exact ⟨rfl, rfl, rfl⟩
  · exact asmWrite_outcome (s := { writeCounted which b s with
      tap := { (writeCounted which b s).tap with port := port }, echo := echo }) hn hres

/-- Settles O29: the write at the ECH, and at the ASM case by case through what `writeAssemblies` leaves and brings about. -/
theorem writesAssembleAndCommit : Obligations.WritesAssembleAndCommit := by
  intro which b n slot line data enables before after old s hl hw hset hlist hothers hhere hlast hrest x mask voiding
    base recorded written renewed freed kept hbytes
  obtain ⟨-, -, -, -, hlt, -⟩ := id hw
  have hslot : AroundSlot slot before old after (s.stream n).assemblies := ⟨hlist, hothers, hhere, hlast⟩
  have hbase : baseAssembly slot s.clock old = base := by cases old <;> rfl
  have hbaseSlot : base.slot = slot := by
    rw [← hbase]
    cases old with
    | none => rfl
    | some a => exact hhere a rfl
  have hvoid : s.tap.port.voidedBy b.line = voiding := voidedBy_eq ..
  obtain ⟨t, hexec, hframe, hstreams, hecho, hport, hnothing, houtcome⟩ :=
    exec_writeTo_spec data enables hl hw hset hrest
  refine ⟨t, hexec, hframe, hstreams, fun h => ?_, fun first e rest hrole hs hfirst he he' => ?_, ?_⟩
  · rw [writeAtEcho_nothing (s := writeCounted which b s) h] at hecho hport
    exact ⟨hecho, hport.trans hvoid⟩
  · rw [writeAtEcho_overtakes (s := writeCounted which b s) hrole hs hfirst he he'] at hecho hport
    exact ⟨hecho, hport.trans (by rw [← hvoid]; rfl)⟩
  split
  · next hm => exact hnothing hm
  next hm =>
  split
  · next hfull =>
    exact houtcome _ _ (writeAssemblies_full hslot hm hfull.1 hfull.2)
  next hroom =>
  split
  · next hone =>
    have hline : line = 0 := Fin.ext (Nat.lt_one_iff.mp (hone ▸ hlt))
    have hres := houtcome _ _ (writeAssemblies_oneLine hslot hm hroom hone)
    split
    · next hall =>
      rw [oneLineWrite_whole hall] at hres
      subst hline
      exact hres
    · next hpart =>
      rw [oneLineWrite_part hpart] at hres
      exact hres
  next hlines =>
  have hres {o : Option Assembly} {r : WriteResult}
      (happly : applyWrite x.desc s.clock line.1 data mask base written = (o, r)) (ho : ∀ a ∈ o, a.slot = slot) :
      WriteOutcome n { x with assemblies := before ++ (o.toList ++ after) } r s t :=
    houtcome _ _ (writeAssemblies_apply hslot hm hroom hlines (by rw [hbase]; exact happly) ho)
  split
  · next hc =>
    obtain ⟨hfirst, hall, hmode⟩ := hc
    exact hres (applyWrite_commits hfirst hall hmode) (by simp)
  next hcommit =>
  split
  · next hc =>
    obtain ⟨hfirst, hall, hcaptured⟩ := hc
    have hmode : x.desc.commitMode ≠ .header := fun k => hcommit ⟨hfirst, hall, k⟩
    have hout := hres (applyWrite_renews hfirst hall hmode hcaptured) fun a ha => by cases ha; exact hbaseSlot
    have hline : line = 0 := Fin.ext hfirst
    rw [hbaseSlot] at hout
    subst hline
    exact hout
  next hrenew =>
  split
  · next hc =>
    obtain ⟨hfirst, hpart, hsome⟩ := hc
    exact hres (applyWrite_tears hfirst hpart hsome) (by simp)
  next htear =>
  split
  · next hc =>
    obtain ⟨hlater, hlastLine, hmode⟩ := hc
    have hout := hres (applyWrite_last hlater hlastLine hmode) (by simp)
    split
    · next h hh => rw [hh] at hout; exact hout
    · next hh => rw [hh] at hout; exact hout
  next hend =>
  exact hres (applyWrite_stays hcommit hrenew htear hend) fun a ha => by
    cases ha
    split <;> exact hbaseSlot

end Sys2Proof.Machine
end

/-! ## The part of the state that a step keeps: the streams, the tables and the ranges -/
section

namespace Sys2Proof.Machine

/-! ### One stream, one pair, the whole part -/

/-- Place 0 of the bitmap is clear whenever the stream is synchronised (R32). -/
def SeqState.Clear : SeqState → Prop
  | .unsynchronised => True
  | .synchronised _ places => places.getLsbD 0 = false

theorem placeZeroClear_iff (s : State) : PlaceZeroClear s ↔ ∀ n, (s.stream n).seq.Clear := Iff.rfl

/-- What every event but a configuration command leaves of a stream `x` in `y`. -/
structure Stream.Kept (x y : Stream) : Prop where
  desc : y.desc = x.desc
  enabled : y.enabled = x.enabled
  fits : x.assemblies.length ≤ 4 → y.assemblies.length ≤ 4
  distinct : (x.assemblies.map Assembly.slot).Nodup → (y.assemblies.map Assembly.slot).Nodup
  clear : x.seq.Clear → y.seq.Clear
  misses : x.pulse.missCount ≤ 15 → y.pulse.missCount ≤ 15

theorem Stream.Kept.refl (x : Stream) : x.Kept x := ⟨rfl, rfl, id, id, id, id⟩

/-- A stream the same in all that these invariants read. -/
theorem Stream.Kept.same {x y : Stream} (hdesc : y.desc = x.desc) (hen : y.enabled = x.enabled)
    (hasm : y.assemblies = x.assemblies) (hseq : y.seq = x.seq) (hmiss : y.pulse.missCount = x.pulse.missCount) :
    x.Kept y :=
  ⟨hdesc, hen, by rw [hasm]; exact id, by rw [hasm]; exact id, by rw [hseq]; exact id, by rw [hmiss]; exact id⟩

theorem Stream.Kept.trans {x y z : Stream} (h : x.Kept y) (k : y.Kept z) : x.Kept z where
  desc := k.desc.trans h.desc
  enabled := k.enabled.trans h.enabled
  fits := k.fits ∘ h.fits
  distinct := k.distinct ∘ h.distinct
  clear := k.clear ∘ h.clear
  misses := k.misses ∘ h.misses

/-- What an event that teaches a pair nothing leaves of the pair `q` in `r`. -/
structure Pair.Kept (q r : Pair) : Prop where
  desc : r.desc = q.desc
  entries : r.entryCount ≤ q.entryCount
  est : r.est = q.est
  timeout : r.timeout = q.timeout

/-- A hold-off factor of Table 8.1. -/
def factorInRange (f : Nat) : Prop := f = 1 ∨ f = 2 ∨ f = 4

/-- The part of `RangesHold` that bears on the timeouts: the pairs, the verdict settings and F. -/
def LearnedInRange (s : State) : Prop :=
  (∀ p : PairIx, (s.pair p).desc.inRange ∧ (s.pair p).est.inRange
      ∧ 1 ≤ (s.pair p).timeout ∧ (s.pair p).timeout ≤ 4194300)
    ∧ s.vrd.settings.inRange ∧ factorInRange s.vrd.factor

/-- What every event but a configuration command keeps of the part: the descriptors and the window lookup as they were, the tables
within their sizes and each value within its range. -/
structure Kept (s t : State) : Prop where
  stream : ∀ n, (s.stream n).Kept (t.stream n)
  pairDesc : ∀ p, (t.pair p).desc = (s.pair p).desc
  lookup : t.tap.lookup = s.tap.lookup
  queue : s.commitQueue.length ≤ 4 → t.commitQueue.length ≤ 4
  echo : s.echo.entries.length ≤ 64 → t.echo.entries.length ≤ 64
  pool : entriesInUse s ≤ 2048 → entriesInUse t ≤ 2048
  buffer : ∀ m, (s.link m).buffer.length ≤ 2 → (t.link m).buffer.length ≤ 2
  learned : LearnedInRange s → LearnedInRange t
  priority : ∀ i, (s.source i).priority ≤ 15 → (t.source i).priority ≤ 15
  threshold : ∀ m, s.iar.threshold m ≤ 15 → t.iar.threshold m ≤ 15
  wait : 1 ≤ s.echo.waitLimit ∧ s.echo.waitLimit ≤ 65535 → 1 ≤ t.echo.waitLimit ∧ t.echo.waitLimit ≤ 65535
  tick : s.stamp.tick ≤ 9999 → t.stamp.tick ≤ 9999
  absence : s.tap.absence ≤ 65535 → t.tap.absence ≤ 65535

/-- The invariants of the tables, the streams and the ranges that hold in `s` hold in `t`. -/
structure Preserved (s t : State) : Prop where
  tables : TablesFit s → TablesFit t
  distinct : AssembliesDistinct s → AssembliesDistinct t
  clear : PlaceZeroClear s → PlaceZeroClear t
  lookup : LookupHolds s → LookupHolds t
  members : MembersHold s → MembersHold t
  ranges : RangesHold s → RangesHold t

theorem Preserved.trans {s t u : State} (h : Preserved s t) (k : Preserved t u) : Preserved s u where
  tables := k.tables ∘ h.tables
  distinct := k.distinct ∘ h.distinct
  clear := k.clear ∘ h.clear
  lookup := k.lookup ∘ h.lookup
  members := k.members ∘ h.members
  ranges := k.ranges ∘ h.ranges

theorem enabledWindows_congr {s t : State} (hen : ∀ n, (t.stream n).enabled = (s.stream n).enabled)
    (hdesc : ∀ n, (s.stream n).enabled = true → (t.stream n).desc = (s.stream n).desc) :
    enabledWindows t = enabledWindows s := by
  simp only [enabledWindows, hen]
  exact List.map_congr_left fun n hn => by rw [hdesc n (List.mem_filter.mp hn).2]

namespace Kept

theorem refl (s : State) : Kept s s :=
  ⟨fun _ => .refl _, fun _ => rfl, rfl, id, id, id, fun _ => id, id, fun _ => id, fun _ => id, id, id, id⟩

theorem trans {s t u : State} (h : Kept s t) (k : Kept t u) : Kept s u where
  stream n := (h.stream n).trans (k.stream n)
  pairDesc p := (k.pairDesc p).trans (h.pairDesc p)
  lookup := k.lookup.trans h.lookup
  queue := k.queue ∘ h.queue
  echo := k.echo ∘ h.echo
  pool := k.pool ∘ h.pool
  buffer m := k.buffer m ∘ h.buffer m
  learned := k.learned ∘ h.learned
  priority i := k.priority i ∘ h.priority i
  threshold m := k.threshold m ∘ h.threshold m
  wait := k.wait ∘ h.wait
  tick := k.tick ∘ h.tick
  absence := k.absence ∘ h.absence

/-- The operation done last first, as a meaning writes it. -/
theorem comp {s t u : State} (k : Kept t u) (h : Kept s t) : Kept s u := h.trans k

theorem ite {s t u : State} {c : Prop} [Decidable c] (h : Kept s t) (k : Kept s u) : Kept s (if c then t else u) := by
  split
  · exact h
  · exact k

theorem foldl {γ : Type} {f : State → γ → State} (hf : ∀ t a, Kept t (f t a)) (l : List γ) (s : State) :
    Kept s (l.foldl f s) :=
  foldl_keeps (P := Kept s) (fun t a h => h.trans (hf t a)) l (refl s)

/-- Each invariant reads nothing but what is kept. -/
theorem preserved {s t : State} (h : Kept s t) : Preserved s t where
  tables := fun ⟨hqueue, hecho, hassemblies, hpool, hA, hB⟩ =>
    ⟨h.queue hqueue, h.echo hecho, fun n => (h.stream n).fits (hassemblies n), h.pool hpool, h.buffer .A hA,
      h.buffer .B hB⟩
  distinct hd n := (h.stream n).distinct (hd n)
  clear hc n := (h.stream n).clear (hc n)
  lookup := fun ⟨hlookup, hmeets⟩ => by
    have hen := fun n => (h.stream n).enabled
    refine ⟨h.lookup.trans (hlookup.trans (enabledWindows_congr hen fun n _ => (h.stream n).desc).symm), ?_⟩
    intro n m hne hn hm
    rw [(h.stream n).desc, (h.stream m).desc]
    exact hmeets n m hne (hen n ▸ hn) (hen m ▸ hm)
  members := fun ⟨hreq, hcomp, hown⟩ => by
    unfold MembersHold
    simp only [h.pairDesc, fun n => (h.stream n).desc]
    exact ⟨hreq, hcomp, hown⟩
  ranges := fun ⟨hstream, hpair, hsettings, hfactor, hpriority, hA, hB, hw, hw', htick, habs⟩ => by
    obtain ⟨kpair, ksettings, kfactor⟩ := h.learned ⟨hpair, hsettings, hfactor⟩
    obtain ⟨kw, kw'⟩ := h.wait ⟨hw, hw'⟩
    refine ⟨fun n => ?_, kpair, ksettings, kfactor, fun i => h.priority i (hpriority i), h.threshold .A hA,
      h.threshold .B hB, kw, kw', h.tick htick, h.absence habs⟩
    obtain ⟨hdesc, hmiss⟩ := hstream n
    exact ⟨by rwa [(h.stream n).desc], (h.stream n).misses hmiss⟩

end Kept

/-! ### The pool of entries (R48) -/

theorem entriesInUse_eq (s : State) : entriesInUse s = ∑ p : PairIx, (s.pair p).entryCount := by
  simp only [entriesInUse, allPairs, List.foldl, Fin.sum_univ_eight, Nat.zero_add]

theorem entriesInUse_mono {s t : State} (h : ∀ p, (t.pair p).entryCount ≤ (s.pair p).entryCount) :
    entriesInUse t ≤ entriesInUse s := by
  rw [entriesInUse_eq, entriesInUse_eq]
  exact Finset.sum_le_sum fun p _ => h p

/-- A pair with one entry more. -/
theorem entriesInUse_modPair {s : State} {p : PairIx} {f : Pair → Pair}
    (h : (f (s.pair p)).entryCount = (s.pair p).entryCount + 1) : entriesInUse (s.modPair p f) = entriesInUse s + 1 := by
  have hplace (r : PairIx) : ((s.modPair p f).pair r).entryCount = (s.pair r).entryCount + if r = p then 1 else 0 := by
    rw [modPair_place]
    by_cases hr : r = p
    · subst hr; simp [h]
    · simp [hr]
  simp only [entriesInUse_eq, hplace, Finset.sum_add_distrib, Finset.sum_ite_eq', Finset.mem_univ, if_true]

/-! ### Updates of one place -/

namespace Kept

variable (s : State)

theorem modStream {n : StreamIx} {f : Stream → Stream} (h : (s.stream n).Kept (f (s.stream n))) :
    Kept s (s.modStream n f) :=
  { refl s with
    stream := fun m => by
      rw [modStream_place]
      split
      · next e => subst e; exact h
      · exact .refl _ }

/-- Pairs changed at any places, each keeping what it has learned. -/
theorem pairs {t : State} (ht : t = { s with pairs := t.pairs }) (h : ∀ p, (s.pair p).Kept (t.pair p)) : Kept s t := by
  have hvrd : t.vrd = s.vrd := by rw [ht]
  have hpool := entriesInUse_mono fun p => (h p).entries
  have hlearned : LearnedInRange s → LearnedInRange t := by
    unfold LearnedInRange
    simp only [fun p => (h p).desc, fun p => (h p).est, fun p => (h p).timeout, hvrd]
    exact id
  have hdesc := fun p => (h p).desc
  rw [ht] at hpool hlearned hdesc ⊢
  exact { refl s with pairDesc := hdesc, pool := fun k => hpool.trans k, learned := hlearned }

theorem modPair {p : PairIx} {f : Pair → Pair} (h : (s.pair p).Kept (f (s.pair p))) : Kept s (s.modPair p f) :=
  pairs s rfl fun r => by
    rw [modPair_place]
    split
    · next e => subst e; exact h
    · exact ⟨rfl, le_rfl, rfl, rfl⟩

theorem modSource {i : SourceIx} {f : Source → Source} (h : (s.source i).priority ≤ 15 → (f (s.source i)).priority ≤ 15) :
    Kept s (s.modSource i f) :=
  { refl s with
    priority := fun j => by
      rw [modSource_place]
      split
      · next e => subst e; exact h
      · exact id }

theorem post (i : SourceIx) (c : Cause) : Kept s (post i c s) := modSource s id

theorem modEcho {f : Echo → Echo} (h : (f s.echo).entries.length ≤ s.echo.entries.length)
    (hw : (f s.echo).waitLimit = s.echo.waitLimit) : Kept s (s.modEcho f) :=
  { refl s with echo := h.trans, wait := fun k => by rw [modEcho_echo, hw]; exact k }

theorem modPort (f : ProbePort → ProbePort) : Kept s (s.modPort f) := { refl s with lookup := rfl }

theorem modTap {f : Tap → Tap} (h : (f s.tap).lookup = s.tap.lookup)
    (ha : s.tap.absence ≤ 65535 → (f s.tap).absence ≤ 65535) : Kept s (s.modTap f) :=
  { refl s with lookup := h, absence := ha }

theorem modVrd {f : Vrd → Vrd} (h : (f s.vrd).settings = s.vrd.settings)
    (hf : (f s.vrd).factor = s.vrd.factor) : Kept s (s.modVrd f) :=
  { refl s with
    learned := fun ⟨hpair, hsettings, hfactor⟩ => ⟨hpair, by rw [modVrd_vrd, h]; exact hsettings,
      by rw [modVrd_vrd, hf]; exact hfactor⟩ }

theorem modLink {m : Manager} {f : Link → Link}
    (h : (s.link m).buffer.length ≤ 2 → (f (s.link m)).buffer.length ≤ 2) : Kept s (s.modLink m f) := by
  have hbuffer (k : Manager) : (s.link k).buffer.length ≤ 2 → ((s.modLink m f).link k).buffer.length ≤ 2 := by
    by_cases hk : k = m
    · subst hk; rw [modLink_same]; exact h
    · rw [modLink_other s hk]; exact id
  cases m with
  | A => exact { refl s with buffer := hbuffer }
  | B => exact { refl s with buffer := hbuffer }

end Kept

end Sys2Proof.Machine
end

/-! ## What the shared operations keep -/
section

namespace Sys2Proof.Machine

/-! ### Windows, expiry and loss (R62, R63, R89, R90) -/

section
variable (p : PairIx) (s : State)

theorem modWindow_kept (f : EvalWindow → EvalWindow) : Kept s (s.modPair p (Pair.modWindow f)) :=
  .modPair s ⟨rfl, le_rfl, rfl, rfl⟩

theorem pairedEvent_kept : Kept s (pairedEvent p s) := by
  unfold pairedEvent; split
  · exact modWindow_kept p s _
  · exact .refl s

theorem adverseEvent_kept : Kept s (adverseEvent p s) := by
  unfold adverseEvent; split
  · exact modWindow_kept p s _
  · exact .refl s

theorem expiryEvent_kept : Kept s (expiryEvent p s) := by
  unfold expiryEvent; split
  · exact modWindow_kept p s _
  · exact .refl s

theorem expiryFinding_kept (e : Entry) : Kept s (expiryFinding p s e) := by
  unfold expiryFinding; split
  · exact expiryEvent_kept p s
  · exact (Kept.post s _ _).trans (expiryEvent_kept p _)

theorem lossFinding_kept (e : LateEntry) : Kept s (lossFinding p s e) := (Kept.post s _ _).trans (expiryEvent_kept p _)

theorem settleDraining_kept : Kept s (settleDraining p s) := by
  unfold settleDraining; split
  · exact .modPair s ⟨rfl, le_rfl, rfl, rfl⟩
  · exact .refl s

/-- An expiry moves entries from the open list to the late list (R62). -/
theorem examineOpen_kept : Kept s (examineOpen p s) := by
  unfold examineOpen; dsimp only; split
  · refine Kept.trans (.modPair s ⟨rfl, ?_, rfl, rfl⟩) (.foldl (expiryFinding_kept p) _ _)
    have h := congrArg List.length
      (List.takeWhile_append_dropWhile (p := fun e : Entry => decide ((s.pair p).timeout ≤ e.age s.clock))
        (l := (s.pair p).openList))
    simp only [Pair.entryCount, List.length_append, List.length_map] at h ⊢
    omega
  · exact .refl s

theorem examineLate_kept : Kept s (examineLate p s) := by
  unfold examineLate; dsimp only; split
  · refine Kept.trans (Kept.trans (.modPair s ⟨rfl, ?_, rfl, rfl⟩) (.foldl (lossFinding_kept p) _ _))
      (settleDraining_kept p _)
    exact Nat.add_le_add_left (List.dropWhile_sublist _).length_le _
  · exact .refl s

theorem examineBoth_kept : Kept s (examineBoth p s) := (examineOpen_kept p s).trans (examineLate_kept p _)

end

/-! ### The estimator and the timeouts (R75 to R83) -/

/-- A value in a range moved toward another of the range by a fraction of the distance stays in it (R78). -/
theorem moved_le {a b m k : Nat} (ha : a ≤ m) (hb : b ≤ m) : ((a : Int) + ((b : Int) - a).tdiv (2 ^ k)).toNat ≤ m := by
  have hpos : (0 : Int) < 2 ^ k := by positivity
  rcases Int.le_total (a : Int) b with h | h
  · have := Int.tdiv_le_self (a := (b : Int) - a) (2 ^ k) (by omega)
    omega
  · have hneg : ((b : Int) - a).tdiv (2 ^ k) = -((a : Int) - b).tdiv (2 ^ k) := by
      rw [← Int.neg_tdiv, Int.neg_sub]
    have := Int.tdiv_nonneg (a := (a : Int) - b) (b := 2 ^ k) (by omega) hpos.le
    omega

/-- A sample within its ceiling keeps the estimator within its ranges (R75 to R78). -/
theorem update_inRange (d : PairDesc) {e : Estimator} {l : Nat} (he : e.inRange) (hl : l ≤ Config.sampleCeiling) :
    (e.update d l).inRange := by
  obtain ⟨hm, hd, hn, -⟩ := he
  have hl' : l ≤ 1048575 := hl
  unfold Estimator.update
  dsimp only
  split
  · exact ⟨by dsimp only; omega, by dsimp only; omega, by dsimp only; omega, fun k hk => by cases hk; exact hl'⟩
  · exact ⟨moved_le hm (by omega), moved_le hd (by omega), by dsimp only; omega, fun k hk => by cases hk; exact hl'⟩

/-- T lies between 1 and four times the largest Tceil (R80). -/
theorem timeoutOf_range {d : PairDesc} (e : Estimator) {f : Nat} (hd : d.inRange) (hf : factorInRange f) :
    1 ≤ timeoutOf d e f ∧ timeoutOf d e f ≤ 4194300 := by
  obtain ⟨-, -, -, -, -, -, -, -, -, hfloor, hle, hceil, -⟩ := hd
  have hbase : d.tfloor ≤ clampedBase d e ∧ clampedBase d e ≤ d.tceil := clampTo_range hle _
  unfold timeoutOf
  rcases hf with rfl | rfl | rfl <;> split <;> omega

section
variable (p : PairIx) (s : State)

/-- A pair whose estimator and T are changed, each within its range. -/
theorem Kept.learn {f : Pair → Pair} (hd : (f (s.pair p)).desc = (s.pair p).desc)
    (he : (f (s.pair p)).entryCount ≤ (s.pair p).entryCount)
    (hl : LearnedInRange s →
      (f (s.pair p)).est.inRange ∧ 1 ≤ (f (s.pair p)).timeout ∧ (f (s.pair p)).timeout ≤ 4194300) :
    Kept s (s.modPair p f) :=
  { Kept.refl s with
    pairDesc := fun r => by
      rw [modPair_place]
      split
      · next e => subst e; exact hd
      · rfl
    pool := fun h => by
      refine (entriesInUse_mono fun r => ?_).trans h
      rw [modPair_place]
      split
      · next e => subst e; exact he
      · exact le_rfl
    learned := fun h => by
      refine ⟨fun r => ?_, h.2⟩
      rw [modPair_place]
      split
      · next e => subst e; exact ⟨by rw [hd]; exact (h.1 r).1, hl h⟩
      · exact h.1 r }

theorem recomputeT_kept : Kept s (recomputeT p s) := by
  unfold recomputeT; dsimp only; split
  · exact .refl s
  · refine Kept.trans (.learn p s rfl le_rfl fun ⟨hpair, _, hfactor⟩ => ?_) (examineBoth_kept p _)
    obtain ⟨hdesc, hest, -⟩ := hpair p
    exact ⟨hest, timeoutOf_range _ hdesc hfactor⟩

theorem setFactor_kept {f : Nat} (h : LearnedInRange s → factorInRange f) : Kept s (setFactor f s) :=
  (Kept.foldl (fun t r => recomputeT_kept r t) allPairs _).comp
    { Kept.refl s with learned := fun k => ⟨k.1, k.2.1, h k⟩ }

/-- Outside HOLDOFF F is 1. -/
theorem setFactor_one_kept : Kept s (setFactor 1 s) := setFactor_kept s fun _ => .inl rfl

theorem takeSample_kept (l : Nat) : Kept s (takeSample p l s) := by
  refine Kept.trans (.learn p s rfl le_rfl fun ⟨hpair, _⟩ => ?_) (recomputeT_kept p _)
  obtain ⟨-, hest, htimeout⟩ := hpair p
  exact ⟨update_inRange _ hest (Nat.min_le_right _ _), htimeout⟩

end

/-! ### The Verdict Unit and the Health Evaluator (sections 6 and 8) -/

section
variable (p : PairIx) (m : Trigger) (s : State)

theorem leaveTrigger_kept : Kept s (leaveTrigger m s) := .modVrd s rfl rfl

theorem joinInFault_kept : Kept s (joinInFault m s) := by
  unfold joinInFault; split
  · exact .refl s
  · exact .modVrd s rfl rfl

theorem markFailed_kept : Kept s (markFailed p s) := Kept.trans (.modPair s ⟨rfl, le_rfl, rfl, rfl⟩) (.post _ _ _)

theorem failInFault_kept : Kept s (failInFault p s) := by
  unfold failInFault; split
  · exact (markFailed_kept p s).trans (joinInFault_kept _ _)
  · exact markFailed_kept p s

theorem promoteStep_kept : Kept s (promoteStep s p) := by
  unfold promoteStep; split
  · exact failInFault_kept p s
  · exact .refl s

theorem enterFault_kept : Kept s (enterFault m s) := by
  have hentered : Kept s (faultEntered m s) := Kept.trans (.modVrd s rfl rfl) (.post _ _ _)
  unfold enterFault; dsimp only; split
  · exact (hentered.trans (setFactor_one_kept _)).trans (.foldl (fun t r => promoteStep_kept r t) allPairs _)
  · exact hentered

theorem joinTrigger_kept : Kept s (joinTrigger m s) := by
  unfold joinTrigger; split
  · exact .refl s
  · split
    · exact joinInFault_kept m s
    · exact enterFault_kept m s

theorem failPair_kept : Kept s (failPair p s) := by
  unfold failPair; split
  · exact (markFailed_kept p s).trans (joinTrigger_kept _ _)
  · exact markFailed_kept p s

theorem promotePending_kept : Kept s (promotePending s) :=
  .foldl (fun t r => by
    split
    · exact failPair_kept r t
    · exact .refl t) (promotionOrder s) s

theorem releaseHoldoff_kept : Kept s (releaseHoldoff s) := Kept.trans (.modVrd s rfl rfl) (setFactor_one_kept _)

theorem passLimit_kept (h : HoldOff) : Kept s (passLimit h s) :=
  (Kept.trans (.modVrd s rfl rfl) (.post _ _ _)).trans (promotePending_kept _)

theorem enterHoldoff_kept : Kept s (enterHoldoff s) := by
  refine (Kept.trans (.modVrd s rfl rfl) (.post _ _ _)).trans (setFactor_kept _ fun ⟨_, hsettings, _⟩ => ?_)
  obtain ⟨-, hfactor, -⟩ := hsettings
  exact hfactor

theorem enterLost_kept : Kept s (enterLost s) := by
  have hcounted : Kept s (lossCounted s) := (Kept.trans (.modTap s rfl id) (.modVrd _ rfl rfl)).trans (.post _ _ _)
  rw [enterLost_eq]; split
  · exact hcounted.trans (joinTrigger_kept _ _)
  · exact hcounted

theorem enterSuspect_kept : Kept s (enterSuspect p s) := Kept.trans (.modPair s ⟨rfl, le_rfl, rfl, rfl⟩) (.post _ _ _)

theorem suspectSample_kept : Kept s (suspectSample p s) := by
  unfold suspectSample; dsimp only; split
  · split
    · exact .refl s
    · exact failPair_kept p s
  · have hconfirm : Kept s (s.modPair p fun q => { q with hev := { q.hev with confirm := q.hev.confirm + 1 } }) :=
      .modPair s ⟨rfl, le_rfl, rfl, rfl⟩
    refine hconfirm.trans ?_
    split
    · split
      · exact Kept.trans (.modPair _ ⟨rfl, le_rfl, rfl, rfl⟩) (.post _ _ _)
      · exact failPair_kept p _
    · exact .refl _

theorem judgeHealth_kept : Kept s (judgeHealth p s) := by
  unfold judgeHealth; dsimp only; split
  · exact .modPair s ⟨rfl, le_rfl, rfl, rfl⟩
  · exact .modPair s ⟨rfl, le_rfl, rfl, rfl⟩
  · split
    · exact suspectSample_kept p s
    · exact enterSuspect_kept p s

theorem judgeWindow_kept (c : WindowClass) : Kept s (judgeWindow p c s) := by
  unfold judgeWindow; split
  · exact (judgeHealth_kept p _).comp (.modPair s ⟨rfl, le_rfl, rfl, rfl⟩)
  · exact .refl s

theorem endWindow_kept : Kept s (endWindow p s) := by
  unfold endWindow; split
  · exact .refl s
  · exact (modWindow_kept p _ _).comp ((judgeWindow_kept p _ _).comp (.modPair s ⟨rfl, le_rfl, rfl, rfl⟩))

theorem quiesceRecord_kept (commit : Clock) : Kept s (quiesceRecord p commit s) := by
  unfold quiesceRecord; dsimp only; split
  · exact .modPair s ⟨rfl, le_rfl, rfl, rfl⟩
  · exact .modPair s ⟨rfl, le_rfl, rfl, rfl⟩

theorem resumeRecord_kept : Kept s (resumeRecord p s) := by
  unfold resumeRecord; split
  · exact .modPair s ⟨rfl, le_rfl, rfl, rfl⟩
  · exact .modPair s ⟨rfl, le_rfl, rfl, rfl⟩

theorem overrunQuiesce_kept : Kept s (overrunQuiesce p s) := (Kept.post s _ _).trans (.modPair _ ⟨rfl, le_rfl, rfl, rfl⟩)

theorem pulseRecord_kept (n : StreamIx) (commit : Clock) : Kept s (pulseRecord n commit s) := by
  unfold pulseRecord; dsimp only
  refine (leaveTrigger_kept _ _).comp (Kept.comp (.modStream _ { Stream.Kept.refl _ with misses := fun _ => Nat.zero_le _ }) ?_)
  exact .ite (.post s _ _) (.refl s)

theorem missPulse_kept (n : StreamIx) : Kept s (missPulse n s) := by
  have hmissed : ∀ (last : Stream → Option Clock), Kept s ((post (streamSource n) .pulseMissed s).modStream n fun x =>
      { x with pulse := { x.pulse with
          missed := satInc x.pulse.missed, missCount := min ((s.stream n).pulse.missCount + 1) 15
          timer := .running s.clock, last := last x } }) := fun _ =>
    (Kept.post s _ _).trans (.modStream _ { Stream.Kept.refl _ with misses := fun _ => Nat.min_le_right _ _ })
  unfold missPulse; dsimp only; split
  · exact (hmissed _).trans (joinTrigger_kept _ _)
  · exact hmissed _

end

end Sys2Proof.Machine
end

/-! ## What the echo part, the assembler and the Correlator keep -/
section

namespace Sys2Proof.Machine

/-! ### The Echo Checker and the Probe Engine (section 7) -/

section
variable (s : State)

theorem handOver_kept : Kept s (handOver s) := by
  unfold handOver; split
  · exact .ite (.modPort s _) (.refl s)
  · exact .refl s

theorem giveUpLine_kept : Kept s (giveUpLine s) := by
  unfold giveUpLine; split
  · exact .refl s
  · exact Kept.comp (.modEcho _ le_rfl rfl) (.modPort s _)
  · exact .modEcho s le_rfl rfl

theorem giveUpIf_kept (k : Purpose) : Kept s (giveUpIf k s) := .ite (giveUpLine_kept s) (.refl s)

theorem modEntry_kept (e : EchoEntry) (f : EchoEntry → EchoEntry) : Kept s (modEntry e f s) :=
  .modEcho s (modFirst_length _ _ _).le rfl

theorem countEcho_kept (f : EchoCounters → EchoCounters) : Kept s (countEcho f s) := .modEcho s le_rfl rfl

theorem retireEntry_kept (e : EchoEntry) : Kept s (retireEntry e s) := by
  have herase : Kept s (s.modEcho fun x =>
      { x with
        entries := x.entries.erase e
        probeQueue := if e.status = .queued then x.probeQueue.erase e.key else x.probeQueue }) :=
    .modEcho s List.erase_sublist.length_le rfl
  exact .ite ((giveUpIf_kept _ _).comp herase) herase

theorem echoFinding_kept (p : PairIx) (c : Cause) : Kept s (echoFinding p c s) :=
  (adverseEvent_kept p _).comp (.post s _ _)

theorem compareEntry_kept (e : EchoEntry) : Kept s (compareEntry e s) := by
  unfold compareEntry; dsimp only
  refine .ite (.ite ?_ ?_) (.refl s)
  · exact (countEcho_kept _ _).comp (retireEntry_kept s e)
  · exact (echoFinding_kept _ _ _).comp ((countEcho_kept _ _).comp (retireEntry_kept s e))

theorem entryRead_kept (e : EchoEntry) (i : Nat) (d : LineData) : Kept s (entryRead e i d s) :=
  .ite ((compareEntry_kept _ _).comp (modEntry_kept s e _)) (.refl s)

theorem lineRead_kept (k : SlotKey) (i : Nat) (d : LineData) : Kept s (lineRead k i d s) := by
  unfold lineRead; split
  · exact .refl s
  · exact entryRead_kept s _ i d

theorem overtake_kept (k : SlotKey) : Kept s (overtake k s) := by
  unfold overtake; split
  · exact .refl s
  · exact (countEcho_kept _ _).comp (retireEntry_kept s _)

theorem dropOldest_kept : Kept s (dropOldest s) := by
  unfold dropOldest; split
  · exact .refl s
  · exact .ite (.refl s) (Kept.comp (.post _ _ _) ((countEcho_kept _ _).comp (retireEntry_kept s _)))

theorem retireEntry_entries (e : EchoEntry) : (retireEntry e s).echo.entries = s.echo.entries.erase e := by
  have hgive (t : State) : (giveUpIf .currentEntry t).echo.entries = t.echo.entries := by
    unfold giveUpIf giveUpLine
    split
    · split <;> rfl
    · rfl
  unfold retireEntry; dsimp only; split
  · exact hgive _
  · rfl

/-- There is room in the echo list once the oldest entry of a full one is dropped (R110). -/
theorem dropOldest_room (h : s.echo.entries.length ≤ 64) : (dropOldest s).echo.entries.length < 64 := by
  unfold dropOldest; split
  · next hs => rw [hs]; decide
  · next e rest hs =>
    split
    · assumption
    · have hentries : (retireEntry e s).echo.entries = rest := by rw [retireEntry_entries, hs, List.erase_cons_head]
      rw [hs, List.length_cons] at h
      rw [post_echo, countEcho, modEcho_echo, hentries]
      omega

theorem appendEcho_kept (p : PairIx) (r : Record) : Kept s (appendEcho p r s) := by
  have hdropped := dropOldest_kept s
  refine .ite (countEcho_kept s _) { hdropped with echo := fun h => ?_ }
  have := dropOldest_room s h
  rw [modEcho_echo, List.length_append, List.length_singleton]
  omega

theorem endSingle_kept (o : SingleOutcome) : Kept s (endSingle o s) := by
  unfold endSingle; split
  · exact .modEcho s le_rfl rfl
  · exact .refl s

theorem takeLine_kept (l : LineInHand) : Kept s (takeLine l s) := (handOver_kept _).comp (.modEcho s le_rfl rfl)

theorem takeQueueHead_kept : Kept s (takeQueueHead s) := by
  unfold takeQueueHead; split
  · exact .refl s
  · exact .modEcho s (modFirst_length _ _ _).le rfl

theorem takeEntryLine_kept : Kept s (takeEntryLine s) := by
  unfold takeEntryLine; split
  · exact .refl s
  · split
    · exact .refl s
    · exact takeLine_kept s _

theorem prbTake_keeps : Kept s (prbTake s) := by
  unfold prbTake
  refine .ite (.refl s) ?_
  split
  · exact takeLine_kept s _
  · exact .ite (takeEntryLine_kept s) ((takeEntryLine_kept _).comp (takeQueueHead_kept s))

theorem starveLine_kept (l : LineInHand) : Kept s (starveLine l s) := by
  unfold starveLine; split
  · exact endSingle_kept s _
  · split
    · exact .refl s
    · exact (echoFinding_kept _ _ _).comp ((countEcho_kept _ _).comp (retireEntry_kept s _))

theorem starveInHand_kept : Kept s (starveInHand s) := by
  unfold starveInHand; split
  · exact (starveLine_kept _ _).comp (giveUpLine_kept s)
  · exact .refl s

theorem abortByClock_kept : Kept s (abortByClock s) := by
  have haborted : Kept s ((s.modPort ProbePort.abort).modEcho fun e => { e with prb := .idle }) :=
    Kept.comp (.modEcho _ le_rfl rfl) (.modPort s _)
  unfold abortByClock; dsimp only
  refine .ite ?_ (.refl s)
  split
  · exact haborted
  · exact (starveLine_kept _ _).comp haborted
  · exact .ite haborted ((starveLine_kept _ _).comp haborted)

theorem lineOutcome_kept (v : Bool) (d : LineData) : Kept s (lineOutcome v d s) := by
  unfold lineOutcome; split
  · have hidle : Kept s (s.modEcho fun e => { e with prb := .idle }) := .modEcho s le_rfl rfl
    dsimp only
    refine .ite hidle ?_
    split
    · exact (endSingle_kept _ _).comp hidle
    · refine .ite hidle ?_
      split
      · exact hidle
      · exact (entryRead_kept _ _ _ _).comp hidle
  · exact .refl s

theorem judgeOverdue_kept (e : EchoEntry) : Kept s (judgeOverdue e s) := by
  unfold judgeOverdue; dsimp only
  refine (echoFinding_kept _ _ _).comp (.ite ?_ ?_)
  · exact Kept.comp (.modEcho _ le_rfl rfl) ((modEntry_kept _ _ _).comp (countEcho_kept s _))
  · exact (retireEntry_kept _ _).comp (countEcho_kept s _)

theorem switchProbeOff_kept : Kept s (switchProbeOff s) := by
  have hwatching : Kept s ((giveUpIf .currentEntry s).modEcho fun x =>
      { x with entries := x.entries.filter (fun e => decide (e.status = .watching)), probeQueue := [] }) :=
    Kept.comp (.modEcho _ (List.length_filter_le ..) rfl) (giveUpIf_kept s _)
  unfold switchProbeOff; dsimp only; split
  · exact (endSingle_kept _ _).comp ((giveUpIf_kept _ _).comp hwatching)
  · exact hwatching

theorem withdrawStream_kept (n : StreamIx) : Kept s (withdrawStream n s) :=
  .foldl (fun t e => (countEcho_kept _ _).comp (retireEntry_kept t e)) _ s

theorem flushEcho_kept : Kept s (flushEcho s) := (endSingle_kept _ _).comp (.modEcho s (Nat.zero_le _) rfl)

end

/-! ### The sequence check (R32) -/

/-- The sequence check leaves place 0 clear. -/
theorem checkSequence_clear {span : Nat} {st q : SeqState} {seq : BitVec 32}
    (h : checkSequence span st seq = .accepted q ∨ ∃ g, checkSequence span st seq = .gap q g) : q.Clear := by
  have hzero (k : BitVec 32) : (SeqState.synchronised k 0).Clear := rfl
  have hadvance (k : BitVec 32) (places : BitVec 4) : (advancePlaces 4 k places).Clear := by
    obtain ⟨k', places', h, hc⟩ := advancePlaces_clear k places
    rw [h]; exact hc
  unfold checkSequence at h
  split at h
  · rcases h with h | ⟨g, h⟩
    · cases h; exact hzero _
    · cases h
  · dsimp only at h
    split_ifs at h
    · rcases h with h | ⟨g, h⟩ <;> cases h
    · rcases h with h | ⟨g, h⟩
      · cases h; exact hadvance _ _
      · cases h
    · rcases h with h | ⟨g, h⟩
      · cases h
      · cases h; exact hzero _
    · rcases h with h | ⟨g, h⟩ <;> cases h

/-! ### The assemblies of a stream (R22 to R27) -/

/-- What a write makes of the assemblies: nothing, that of the slot freed, or one put in its place or into a free one. -/
theorem writeAssemblies_cases (d : StreamDesc) (now : Clock) (slot : Nat) (i : Fin 8) (data : LineData) (mask : ByteMask)
    (l : List Assembly) :
    (writeAssemblies d now slot i data mask l).1 = l
      ∨ (writeAssemblies d now slot i data mask l).1 = freeAssembly slot l
      ∨ ∃ b, (writeAssemblies d now slot i data mask l).1 = putAssembly b l
          ∧ (findAssembly b.slot l = none → l.length < 4) := by
  have hslot {old b c : Assembly} {r : WriteResult} (hb : b.slot = slot) (ho : old.slot = slot)
      (h : applyWrite d now i.1 data mask old b = (some c, r)) : c.slot = slot := by
    unfold applyWrite at h
    split at h
    · split at h
      · cases h
      · cases h; exact hb
      · split at h
        · cases h
        · split at h <;> cases h
          · exact hb
          · exact ho
    · split at h
      · cases h; exact hb
      · split at h
        · split at h <;> cases h
        · cases h; exact hb
  unfold writeAssemblies
  split
  · exact .inl rfl
  · split
    · next hfind =>
      split
      · exact .inl rfl
      · next hroom =>
        split
        · exact .inl rfl
        · dsimp only
          split
          · exact .inr (.inr ⟨_, rfl, fun _ => Nat.lt_of_not_le hroom⟩)
          · exact .inl rfl
    · next a hfind =>
      obtain ⟨-, ha⟩ := findAssembly_slot hfind
      split
      · exact .inr (.inl rfl)
      · split
        · next b r happly =>
          refine .inr (.inr ⟨b, rfl, fun hnone => ?_⟩)
          rw [hslot ((writeLine_slot ..).trans ha) ha happly, hfind] at hnone
          cases hnone
        · exact .inr (.inl rfl)

theorem findAssembly_none {slot : Nat} {l : List Assembly} : findAssembly slot l = none ↔ slot ∉ l.map Assembly.slot := by
  simp [findAssembly, List.find?_eq_none]

theorem freeAssembly_distinct (slot : Nat) {l : List Assembly} (h : (l.map Assembly.slot).Nodup) :
    ((freeAssembly slot l).map Assembly.slot).Nodup := h.sublist (List.filter_sublist.map _)

theorem putAssembly_distinct (a : Assembly) {l : List Assembly} (h : (l.map Assembly.slot).Nodup) :
    ((putAssembly a l).map Assembly.slot).Nodup := by
  unfold putAssembly
  split
  · have hslots : (l.map fun b => if b.slot = a.slot then a else b).map Assembly.slot = l.map Assembly.slot := by
      rw [List.map_map]
      refine List.map_congr_left fun b _ => ?_
      simp only [Function.comp_apply]
      split
      · next e => exact e.symm
      · rfl
    rwa [hslots]
  · next hnone =>
    have hnew : a.slot ∉ l.map Assembly.slot := findAssembly_none.mp (by simpa using hnone)
    rw [List.map_append, List.map_singleton]
    exact List.nodup_append.mpr ⟨h, List.nodup_singleton _, fun x hx y hy e => by
      rw [List.mem_singleton] at hy
      exact hnew (hy ▸ e ▸ hx)⟩

theorem writeAssemblies_kept (x : Stream) (now : Clock) (slot : Nat) (i : Fin 8) (data : LineData) (mask : ByteMask) :
    x.Kept { x with assemblies := (writeAssemblies x.desc now slot i data mask x.assemblies).1 } := by
  rcases writeAssemblies_cases x.desc now slot i data mask x.assemblies with h | h | ⟨b, h, hroom⟩
  · rw [h]; exact .refl x
  · rw [h]
    exact { Stream.Kept.refl x with
      fits := fun k => (freeAssembly_length slot _).trans k, distinct := freeAssembly_distinct slot }
  · rw [h]
    refine { Stream.Kept.refl x with fits := fun k => ?_, distinct := putAssembly_distinct b }
    show (putAssembly b x.assemblies).length ≤ 4
    rcases putAssembly_length b x.assemblies with e | ⟨hnone, e⟩
    · omega
    · have := hroom hnone
      omega

/-! ### Commits and writes (R29 to R36) -/

section
variable (n : StreamIx) (s : State)

theorem countStream_kept (f : StreamCounters → StreamCounters) :
    Kept s (s.modStream n fun x => { x with counters := f x.counters }) := .modStream s (.same rfl rfl rfl rfl rfl)

theorem dropRecord_kept (c : Cause) : Kept s (dropRecord n c s) :=
  Kept.comp (.post _ _ _) (.modStream s (.same rfl rfl rfl rfl rfl))

theorem offerRecord_kept (r : Record) : Kept s (offerRecord r s) := by
  unfold offerRecord; split
  · next hroom =>
    have hmark : Kept s (s.modStream r.stream fun x => { x with overrunPending := false }) :=
      .modStream s (.same rfl rfl rfl rfl rfl)
    refine { hmark with queue := fun _ => ?_ }
    rw [List.length_append, List.length_singleton]
    exact hroom
  · exact Kept.comp (.post _ _ _) (.modStream s (.same rfl rfl rfl rfl rfl))

theorem acceptRecord_kept (r : Record) {q : SeqState} (hq : q.Clear) : Kept s (acceptRecord r q s) :=
  (offerRecord_kept _ _).comp (.modStream s { Stream.Kept.refl _ with clear := fun _ => hq })

theorem countGap_kept (g : BitVec 32) : Kept s (countGap n g s) :=
  Kept.comp (.post _ _ _) (.modStream s (.same rfl rfl rfl rfl rfl))

theorem commitRecord_kept (a : Assembly) (h : Header) : Kept s (commitRecord n a h s) := by
  cases hc : dropCause (s.stream n).desc a.slot h with
  | some c => rw [commitRecord_drops hc]; exact dropRecord_kept n s c
  | none =>
    rw [commitRecord_passes hc]
    cases hseq : checkSequence (s.stream n).desc.reorderSpan (s.stream n).seq h.sequence with
    | stale => exact dropRecord_kept n s _
    | accepted q => exact acceptRecord_kept s _ (checkSequence_clear (.inl hseq))
    | gap q g => exact (acceptRecord_kept _ _ (checkSequence_clear (.inr ⟨g, hseq⟩))).comp (countGap_kept n s g)

theorem asmWrite_kept (slot : Nat) (i : Fin 8) (data : LineData) (mask : ByteMask) :
    Kept s (asmWrite n slot i data mask s) := by
  have hwrite := Kept.modStream s (writeAssemblies_kept (s.stream n) s.clock slot i data mask)
    (f := fun x => { x with assemblies := _ })
  unfold asmWrite; dsimp only
  refine .ite ?_ (.refl s)
  split
  · exact hwrite
  · exact Kept.comp (.post _ _ _) (Kept.comp (.modStream _ (.same rfl rfl rfl rfl rfl)) hwrite)
  · exact Kept.comp (.post _ _ _) (Kept.comp (.modStream _ (.same rfl rfl rfl rfl rfl)) hwrite)
  · exact (commitRecord_kept n _ _ _).comp hwrite

end

/-! ### The Correlator (section 4) -/

section
variable (p : PairIx) (r : Record) (s : State)

theorem addUntracked_kept (k : BitVec 32) : Kept s (addUntracked p k s) := .modPair s ⟨rfl, le_rfl, rfl, rfl⟩

theorem countUnseen_kept : Kept s (countUnseen p r s) := by
  have hoverrun : Kept s (if r.overrun then addUntracked p 1 s else s) := .ite (addUntracked_kept p s 1) (.refl s)
  unfold countUnseen; dsimp only; split
  · exact hoverrun
  · exact (addUntracked_kept p _ _).comp hoverrun

theorem retryRequest_kept : Kept s (retryRequest p r s) :=
  .modPair s ⟨rfl, by simp [Pair.entryCount], rfl, rfl⟩

/-- An entry joins the open list while the pool has room (R53). -/
theorem joinOpen_kept (e : Entry) (hroom : entriesInUse s < 2048) :
    Kept s (s.modPair p fun q => { q with openList := q.openList ++ [e] }) :=
  { Kept.refl s with
    pairDesc := fun x => by
      rw [modPair_place]
      split <;> rfl
    pool := fun _ => by
      rw [entriesInUse_modPair (by simp only [Pair.entryCount, List.length_append, List.length_singleton]; omega)]
      exact hroom
    learned := fun ⟨hpair, hrest⟩ => by
      refine ⟨fun x => ?_, hrest⟩
      rw [modPair_place]
      split
      · exact hpair x
      · exact hpair x }

theorem insertRequest_kept : Kept s (insertRequest p r s) := by
  unfold insertRequest
  refine .ite ((addUntracked_kept p _ 1).comp (.post s _ _)) ?_
  split
  · exact (addUntracked_kept p _ 1).comp (.post s _ _)
  · next hroom =>
    have hjoined : Kept s (countPair p (fun c => { c with tracked := c.tracked + 1 })
        (s.modPair p fun q => { q with openList := q.openList ++ [newEntry r] })) :=
      Kept.comp (.modPair _ ⟨rfl, le_rfl, rfl, rfl⟩) (joinOpen_kept p s _ (Nat.lt_of_not_le hroom))
    exact .ite ((examineOpen_kept p _).comp hjoined) hjoined

theorem handleRequest_kept : Kept s (handleRequest p r s) := by
  have hunseen := countUnseen_kept p r s
  exact .ite ((retryRequest_kept p r _).comp hunseen)
    (.ite ((addUntracked_kept p _ 1).comp hunseen) ((insertRequest_kept p r _).comp hunseen))

theorem settled_kept (l : Nat) {c : Bool} {t : State} {f : State → State} (hf : ∀ u, Kept u (f u)) (h : Kept s t) :
    Kept s (takeSample p l (if c then f (settleDraining p t) else settleDraining p t)) := by
  have hdrained := (settleDraining_kept p t).comp h
  exact (takeSample_kept p _ l).comp (.ite ((hf _).comp hdrained) hdrained)

theorem completeOpen_kept (e : Entry) : Kept s (completeOpen p r e s) := by
  refine settled_kept p s _ (examineOpen_kept p) ((pairedEvent_kept p _).comp (.modPair s ⟨rfl, ?_, rfl, rfl⟩))
  exact Nat.add_le_add_right List.eraseP_sublist.length_le _

theorem holdOpen_kept {e : Entry} (he : (s.pair p).openWith r.tag = some e) : Kept s (holdOpen p r e s) := by
  obtain ⟨hmem, htag⟩ := openWith_mem he
  have hlength := removeOpen_length hmem htag
  have hmoved : Kept s (pairedEvent p (s.modPair p fun q =>
      { q with openList := removeOpen r.tag q.openList ++ [e.rearmed r.commitTime] })) :=
    (pairedEvent_kept p _).comp (.modPair s ⟨rfl, by simp [Pair.entryCount]; omega, rfl, rfl⟩)
  exact .ite (.ite ((examineOpen_kept p _).comp hmoved) hmoved) (.post s _ _)

theorem completeLate_kept (e : LateEntry) : Kept s (completeLate p r e s) := by
  refine settled_kept p s _ (examineLate_kept p)
    ((pairedEvent_kept p _).comp (Kept.comp (.post _ _ _) (.modPair s ⟨rfl, ?_, rfl, rfl⟩)))
  exact Nat.add_le_add_left List.eraseP_sublist.length_le _

theorem holdLate_kept {e : LateEntry} (he : (s.pair p).lateWith r.tag = some e) : Kept s (holdLate p r e s) := by
  obtain ⟨hmem, htag⟩ := lateWith_mem he
  have hlength := removeLate_length hmem htag
  have hmoved : Kept s (pairedEvent p (s.modPair p fun q =>
      { q with
        lateList := removeLate r.tag q.lateList
        openList := q.openList ++ [e.entry.rearmed r.commitTime] })) :=
    (pairedEvent_kept p _).comp (.modPair s ⟨rfl, by simp [Pair.entryCount]; omega, rfl, rfl⟩)
  refine .ite ?_ (.post s _ _)
  dsimp only
  have hexamined := Kept.ite (c := (s.pair p).openList = []) ((examineOpen_kept p _).comp hmoved) hmoved
  exact .ite ((examineLate_kept p _).comp hexamined) hexamined

theorem orphan_kept : Kept s (orphan p s) :=
  (adverseEvent_kept p _).comp (Kept.comp (.post _ _ _) (.modPair s ⟨rfl, le_rfl, rfl, rfl⟩))

theorem matchCompletion_kept : Kept s (matchCompletion p r s) := by
  unfold matchCompletion; split
  · next e he => exact .ite (holdOpen_kept p r s he) (completeOpen_kept p r s e)
  · split
    · next e he => exact .ite (holdLate_kept p r s he) (completeLate_kept p r s e)
    · exact orphan_kept p s

theorem handleCompletion_kept : Kept s (handleCompletion p r s) := by
  have htaint : Kept s (taintWindow p r s) := .ite (modWindow_kept p s _) (.refl s)
  unfold handleCompletion; dsimp only; split
  · have hmatched := (matchCompletion_kept p r _).comp htaint
    exact .ite ((appendEcho_kept _ p r).comp hmatched) hmatched
  · exact (quiesceRecord_kept p _ _).comp htaint
  · exact (resumeRecord_kept p _).comp htaint
  · exact .refl s

theorem handleRecord_kept : Kept s (handleRecord r s) := by
  unfold handleRecord; split
  · exact pulseRecord_kept s _ _
  · split
    · exact .refl s
    · exact .ite (handleRequest_kept _ r s) (.refl s)
  · split
    · exact .refl s
    · exact .ite (handleCompletion_kept _ r s) (.refl s)
  · exact .refl s

theorem pickup_kept (n : StreamIx) (slot : Nat) : Kept s (pickup n slot s) := by
  unfold pickup; split
  · exact .refl s
  · exact .ite (.modPair s ⟨rfl, by simp [Pair.entryCount, pickupLast_length], rfl, rfl⟩) (.refl s)

end

end Sys2Proof.Machine
end

/-! ## What the commands keep that configure nothing -/
section

namespace Sys2Proof.Machine

/-! ### The next state of a command -/

/-- Whatever next state this outcome has, it has the property. -/
def Leads (P : State → Prop) (o : Host.Outcome State Fault Refusal) : Prop := ∀ t, o = .next t → P t

theorem Leads.next {P : State → Prop} {t : State} (h : P t) : Leads P (.next t) := fun u hu => by
  cases hu; exact h

theorem Leads.mono {P Q : State → Prop} {o : Host.Outcome State Fault Refusal} (h : Leads P o) (k : ∀ t, P t → Q t) :
    Leads Q o := fun t ht => k t (h t ht)

/-! ### The channel (section 2) -/

section
variable (s : State)

theorem countOutside_kept : Kept s (countOutside s) := .modTap s rfl id

theorem countUnobserved_kept : Kept s (countUnobserved s) := .modTap s rfl id

theorem presentWrite_kept (a : LineAddr) (data : LineData) (mask : ByteMask) : Kept s (presentWrite a data mask s) := by
  have hcounted : Kept s (s.modTap fun t => { t with writeCount := t.writeCount + 1 }) := .modTap s rfl id
  unfold presentWrite; dsimp only; split
  · exact (countOutside_kept _).comp hcounted
  · exact (asmWrite_kept _ _ _ _ _ _).comp (.ite ((overtake_kept _ _).comp hcounted) hcounted)

theorem presentRead_kept (a : LineAddr) (data : LineData) : Kept s (presentRead a data s) := by
  have hcounted : Kept s (s.modTap fun t => { t with readCount := t.readCount + 1 }) := .modTap s rfl id
  unfold presentRead; dsimp only; split
  · exact (countOutside_kept _).comp hcounted
  · split
    · exact .ite ((pickup_kept _ _ _).comp hcounted) hcounted
    · exact (lineRead_kept _ _ _ _).comp hcounted
    · exact hcounted

theorem discontinued_kept (q : Pair) : q.Kept q.discontinued := by
  unfold Pair.discontinued
  split <;> exact ⟨rfl, Nat.zero_le _, rfl, rfl⟩

theorem startDiscontinuity_stream (n : StreamIx) :
    (startDiscontinuity s).stream n = ((flushEcho s).stream n).discontinued := vmap_place ..

theorem startDiscontinuity_pair (p : PairIx) :
    (startDiscontinuity s).pair p = ((flushEcho s).pair p).discontinued := vmap_place ..

theorem startDiscontinuity_kept : Kept s (startDiscontinuity s) := by
  have hpairs : Kept (flushEcho s) { flushEcho s with pairs := (startDiscontinuity s).pairs } :=
    .pairs _ rfl fun p => by
      show ((flushEcho s).pair p).Kept ((startDiscontinuity s).pair p)
      rw [startDiscontinuity_pair]
      exact discontinued_kept _
  refine Kept.comp { hpairs with stream := fun n => ?_, queue := fun _ => Nat.zero_le _ } (flushEcho_kept s)
  rw [startDiscontinuity_stream]
  exact { Stream.Kept.refl _ with
          fits := fun _ => Nat.zero_le _, distinct := fun _ => List.nodup_nil, clear := fun _ => trivial,
          misses := fun _ => Nat.zero_le _ }

theorem restarted_kept (now : Clock) (x : Stream) : x.Kept (x.restarted now) := by
  unfold Stream.restarted; split
  · exact .same rfl rfl rfl rfl rfl
  · exact .refl x

theorem endDiscontinuity_stream (n : StreamIx) : (endDiscontinuity s).stream n = (s.stream n).restarted s.clock :=
  vmap_place ..

theorem endDiscontinuity_pair (p : PairIx) :
    (endDiscontinuity s).pair p = (s.pair p).modWindow (EvalWindow.restarted s.clock) := vmap_place ..

theorem endDiscontinuity_kept : Kept s (endDiscontinuity s) := by
  have hpairs : Kept s { s with pairs := (endDiscontinuity s).pairs } :=
    .pairs _ rfl fun p => by
      show (s.pair p).Kept ((endDiscontinuity s).pair p)
      rw [endDiscontinuity_pair]
      exact ⟨rfl, le_rfl, rfl, rfl⟩
  refine { hpairs with stream := fun n => ?_ }
  rw [endDiscontinuity_stream]
  exact restarted_kept _ _

theorem setBank_kept (b : BankAddr) (x : BankState) : Kept s (s.modTap (Tap.setBank b x)) := .modTap s rfl id

theorem columnCommand_kept (b : BankAddr) (column : BitVec 10) (op : ColumnOp) (length : BurstLength) (auto : Bool) :
    Leads (Kept s) (exec (.columnCommand b column op length auto) s) := by
  rw [exec_columnCommand]
  have h := columnResult_only s.straps.amap b column op length auto s.tap
  exact .next { Kept.refl s with lookup := (congrArg Tap.lookup h :), absence := fun k => (congrArg Tap.absence h).symm ▸ k }

theorem writeDataComplete_kept (which : Nat) (data : LineData) (mask : ByteMask) (dur : Bool) :
    Leads (Kept s) (execWriteDataComplete which data mask dur s) := by
  unfold execWriteDataComplete; split
  · exact .next (.refl s)
  · next b _ =>
    refine .next ?_
    have htaken : Kept s (writeTaken which b s) := .modTap s rfl id
    exact .ite ((prbTake_keeps _).comp ((presentWrite_kept _ _ _ _).comp htaken)) htaken

theorem readDataComplete_kept (which : Nat) (data : LineData) (dur : Bool) :
    Leads (Kept s) (execReadDataComplete which data dur s) := by
  unfold execReadDataComplete; split
  · exact .next (.refl s)
  · refine .next ?_
    have htaken : Kept s (readTaken which s) := .modTap s rfl id
    exact .ite (.ite ((prbTake_keeps _).comp ((presentRead_kept _ _ _).comp htaken))
      ((countUnobserved_kept _).comp htaken)) htaken

theorem probeGrant_kept : Leads (Kept s) (execProbeGrant s) := by
  have hseen : Kept s (s.modPort fun x => { x with pgnt := true }) := .modPort s _
  unfold execProbeGrant; dsimp only; split
  · exact .next (Kept.comp (.modEcho _ le_rfl rfl) (Kept.comp (.modPort _ _) ((setBank_kept _ _ _).comp hseen)))
  · exact .next hseen

theorem probeDataReturn_kept (data : LineData) (abandoned : Bool) :
    Leads (Kept s) (execProbeDataReturn data abandoned s) := by
  unfold execProbeDataReturn; split
  · exact .next ((prbTake_keeps _).comp
      ((lineOutcome_kept _ _ _).comp (Kept.comp (.modPort _ _) (setBank_kept s _ _))))
  · exact .next (.refl s)

theorem probeGrantReleased_kept : Leads (Kept s) (exec .probeGrantReleased s) := by
  by_cases hphase : s.tap.port.phase = .releasing
  · cases hline : s.tap.port.line with
    | some a => rw [exec_probeGrantReleased_held hphase hline]; exact .next (.modPort s _)
    | none =>
      rw [exec_probeGrantReleased_free hphase hline]
      exact .next ((prbTake_keeps _).comp ((handOver_kept _).comp (.modPort s _)))
  · rw [exec_probeGrantReleased_other hphase]; exact .next (.modPort s _)

theorem clockStop_kept : Leads (Kept s) (exec .clockStop s) := by
  have hstopped : Kept s (clockStopped s) :=
    { Kept.refl s with absence := fun _ => by unfold clockStopped; dsimp only; split <;> omega }
  by_cases hrun : s.tap.presence = .running
  · rw [exec_clockStop hrun]
    exact .next ((prbTake_keeps _).comp ((abortByClock_kept _).comp hstopped))
  · simp only [exec, execClockStop, if_neg hrun]
    exact .next (.refl s)

theorem returnAfterLoss_kept : Leads (Kept s) (execReturnAfterLoss s) := by
  unfold execReturnAfterLoss; split
  · have hback : Kept s (leaveTrigger .channelLoss (s.modTap fun t => { t with presence := .running, absence := 0 })) :=
      (leaveTrigger_kept _ _).comp (.modTap s rfl fun _ => Nat.zero_le _)
    exact .next (.ite hback ((endDiscontinuity_kept _).comp ((startDiscontinuity_kept _).comp hback)))
  · exact .next (.refl s)

/-! ### Time and the part's own judgements -/

theorem tickBoundary_kept (live : Bool) : Leads (Kept s) (execTickBoundary live s) := by
  refine .next { Kept.refl s with lookup := ?_, tick := fun h => ?_, absence := fun h => ?_ }
  · dsimp only; split <;> rfl
  · dsimp only
    unfold Stamp.next
    split
    · assumption
    · exact Nat.zero_le _
  · dsimp only
    split
    · exact Nat.min_le_right _ _
    · exact h

theorem corTakeRecord_kept : Leads (Kept s) (execCorTakeRecord s) := by
  unfold execCorTakeRecord; split
  · exact .next (.refl s)
  · next r rest hq =>
    have htaken : Kept s { s with commitQueue := rest } :=
      { Kept.refl s with queue := fun h => by rw [hq, List.length_cons] at h; dsimp only; omega }
    exact .next ((prbTake_keeps _).comp ((handleRecord_kept _ _).comp htaken))

theorem assemblyAbandon_kept (n : StreamIx) (slot : Nat) : Leads (Kept s) (execAssemblyAbandon n slot s) := by
  unfold execAssemblyAbandon; split
  · exact .next (.refl s)
  · exact .next (.ite (Kept.comp (.post _ _ _) (.modStream s
      { Stream.Kept.refl _ with
        fits := fun h => (freeAssembly_length _ _).trans h, distinct := freeAssembly_distinct _ })) (.refl s))

theorem silence_kept (n : StreamIx) : Leads (Kept s) (execSilence n s) :=
  .next (.ite (Kept.comp (.post _ _ _) (.modStream s (.same rfl rfl rfl rfl rfl))) (.refl s))

theorem echoOverdue_kept : Leads (Kept s) (execEchoOverdue s) := by
  unfold execEchoOverdue; split
  · exact .next (.refl s)
  · exact .next ((prbTake_keeps _).comp (judgeOverdue_kept s _))

theorem calmNJudgement_kept (high : Bool) : Leads (Kept s) (execCalmNJudgement high s) := by
  have hsensed (v : Bool) : Kept s (s.modVrd fun x => { x with sensedHigh := v }) := .modVrd s rfl rfl
  unfold execCalmNJudgement; dsimp only; split
  · exact .next (hsensed _)
  · split
    · exact .next (.ite ((enterHoldoff_kept _).comp (hsensed _)) (hsensed _))
    · exact .next (Kept.comp (.modVrd _ rfl rfl) (hsensed _))
    · exact .next (hsensed _)

theorem holdoffRelease_kept : Leads (Kept s) (execHoldoffRelease s) := by
  unfold execHoldoffRelease; split
  · exact .next (.ite (releaseHoldoff_kept s) (.refl s))
  · exact .next (.refl s)

theorem holdoffLimit_kept : Leads (Kept s) (execHoldoffLimit s) := by
  unfold execHoldoffLimit; split
  · exact .next (.ite (passLimit_kept s _) (.refl s))
  · exact .next (.refl s)

end

/-! ### The links (section 10) -/

section
variable (m : Manager) (stn : BitVec 6)

theorem overrun_buffer (l : Link) : l.overrun.buffer = l.buffer := by
  unfold Link.overrun; split <;> rfl

theorem beginReply_buffer (r : Reply) (l : Link) : (l.beginReply r).buffer = l.buffer := by
  unfold Link.beginReply; split <;> rfl

theorem gapTimeout_buffer (l : Link) : l.gapTimeout.buffer = l.buffer := by
  unfold Link.gapTimeout; split <;> rfl

theorem replyDone_buffer (l : Link) : l.replyDone.buffer = l.buffer := by
  unfold Link.replyDone; split <;> rfl

/-- A character joins a buffer that has room for it (R157). -/
theorem receive_buffer (now : Clock) (ch : LinkChar) {l : Link} (h : l.buffer.length ≤ 2) :
    (l.receive m stn now ch).buffer.length ≤ 2 := by
  unfold Link.receive; dsimp only
  split
  · exact h
  split
  · rw [overrun_buffer]; exact h
  next hroom =>
  have hlt : l.buffer.length < 2 := Nat.lt_of_not_le hroom
  refine (drain_buffer_length m stn _ l).trans ?_
  rw [List.length_append, List.length_singleton]
  exact hlt

theorem deliver_buffer (c : Instr) (r : Reply) (l : Link) : (l.deliver m stn c r).buffer.length ≤ l.buffer.length := by
  have hleave (ov : Bool) : (l.leaveHanding m stn r ov).buffer.length ≤ l.buffer.length := by
    unfold Link.leaveHanding; dsimp only
    rw [beginReply_buffer]
    refine (drain_buffer_length ..).trans (le_of_eq ?_)
    cases ov <;> rfl
  unfold Link.deliver; split
  · split
    · exact hleave _
    · exact le_rfl
  · exact le_rfl

/-- The answer of an owner reaches the link alone, and lengthens no buffer. -/
theorem answer_preserved (c : Instr) {s : State} {out : State × Reply} (h : Preserved s out.1) :
    Preserved s (answer m c s out) := by
  obtain ⟨-, e⟩ | ⟨-, e⟩ := answer_cases m c s out
  · rw [e]; exact (Kept.modLink s id).preserved
  · rw [e]; exact h.trans (Kept.modLink _ fun k => (deliver_buffer ..).trans k).preserved

theorem answer_kept (c : Instr) {s : State} {out : State × Reply} (h : Kept s out.1) : Kept s (answer m c s out) := by
  obtain ⟨-, e⟩ | ⟨-, e⟩ := answer_cases m c s out
  · rw [e]; exact .modLink s id
  · rw [e]; exact Kept.comp (.modLink _ fun k => (deliver_buffer ..).trans k) h

end

/-! ### The managers' commands that leave the descriptors -/

section
variable (s : State)

theorem started_kept (p : PairIx) (w : EvalWindow) : Kept s (s.modPair p (Pair.started w)) :=
  .learn p s rfl le_rfl fun ⟨hpair, _⟩ => by
    obtain ⟨-, -, htimeout⟩ := hpair p
    exact ⟨⟨Nat.zero_le _, Nat.zero_le _, Nat.zero_le _, fun _ h => by cases h⟩, htimeout⟩

theorem takenEnablePair_kept (b : Byte) : Kept s (takenEnablePair b s).1 := by
  unfold takenEnablePair; split
  · exact .refl s
  split
  · exact .refl s
  split
  · exact .refl s
  exact (recomputeT_kept _ _).comp (started_kept s _ _)

theorem takenRetirePair_kept (b : Byte) : Kept s (takenRetirePair b s).1 := by
  unfold takenRetirePair; split
  · exact .refl s
  · split
    · exact .refl s
    · exact .refl s
    · exact .refl s
    all_goals exact (settleDraining_kept _ _).comp (.modPair s ⟨rfl, le_rfl, rfl, rfl⟩)

theorem takenClearPair_kept (b : Byte) : Kept s (takenClearPair b s).1 := by
  unfold takenClearPair; split
  · exact .refl s
  split
  · exact .refl s
  have hcleared (p : PairIx) (w : EvalWindow) : Kept s (s.modPair p (Pair.cleared w)) := .modPair s ⟨rfl, le_rfl, rfl, rfl⟩
  exact .ite ((leaveTrigger_kept _ _).comp (hcleared _ _)) (hcleared _ _)

theorem takenSetSource_kept (o : SetSourceOps) : Kept s (takenSetSource o s).1 := by
  unfold takenSetSource; split
  · exact .refl s
  · split
    · exact .modSource s fun _ => Nat.min_le_right _ _
    · exact .refl s

theorem takenSetThreshold_kept (target v : Byte) : Kept s (takenSetThreshold target v s).1 := by
  have hmin : min v.toNat 15 ≤ 15 := Nat.min_le_right _ _
  unfold takenSetThreshold; split
  · exact .refl s
  · next m _ =>
    cases m with
    | A => exact { Kept.refl s with threshold := fun k => by cases k with | A => exact fun _ => hmin | B => exact id }
    | B => exact { Kept.refl s with threshold := fun k => by cases k with | A => exact id | B => exact fun _ => hmin }

theorem takenAcknowledge_kept (m : Manager) (b : Byte) : Kept s (takenAcknowledge m b s).1 := by
  unfold takenAcknowledge; split
  · exact .refl s
  split
  · exact .refl s
  split
  · exact .refl s
  exact .modSource s id

theorem factorOf_range {b : Byte} {f : Nat} (h : factorOf b = some f) : factorInRange f := by
  unfold factorOf at h
  split_ifs at h
  · cases h; exact .inl rfl
  · cases h; exact .inr (.inl rfl)
  · cases h; exact .inr (.inr rfl)

theorem tuned_settings_inRange (o : SetVerdictOps) (fence alarm : Bool) {f : Nat} (hf : factorInRange f) :
    (o.tuned fence alarm f).inRange := by
  obtain ⟨-, hloss⟩ := clampTo_range (Nat.zero_le 65535) o.channelLossLimit.toNat
  obtain ⟨hlo, hhi⟩ := clampTo_range (lo := 1) (hi := 65535) (by omega) o.releaseSettle.toNat
  obtain ⟨-, hlimit⟩ := clampTo_range (Nat.zero_le 16777215) o.holdoffLimit.toNat
  exact ⟨hloss, hf, hlo, hhi, hlimit⟩

theorem actOnLossSettings_kept (was : Bool) : Kept s (actOnLossSettings was s) := by
  have hlost : Kept s (if lossDue s then enterLost s else s) := .ite (enterLost_kept s) (.refl s)
  exact .ite (.ite ((joinTrigger_kept _ _).comp hlost) (.ite ((leaveTrigger_kept _ _).comp hlost) hlost)) hlost

theorem actOnHoldoffLimit_kept : Kept s (actOnHoldoffLimit s) := by
  unfold actOnHoldoffLimit; split
  · exact .ite (releaseHoldoff_kept s) (.ite (passLimit_kept s _) (.refl s))
  · exact .refl s

theorem actOnReleaseSettle_kept : Kept s (actOnReleaseSettle s) := by
  unfold actOnReleaseSettle; split
  · exact .ite (releaseHoldoff_kept s) (.refl s)
  · exact .refl s

theorem actOnFactor_kept : Kept s (actOnFactor s) := by
  unfold actOnFactor; split
  · refine .ite (setFactor_kept s fun ⟨_, hsettings, _⟩ => ?_) (.refl s)
    obtain ⟨-, hfactor, -⟩ := hsettings
    exact hfactor
  · exact .refl s

theorem takenSetVerdict_kept (o : SetVerdictOps) : Kept s (takenSetVerdict o s).1 := by
  unfold takenSetVerdict; split
  · next f fence alarm hf _ _ =>
    have hset : Kept s (s.modVrd fun x => { x with settings := o.tuned fence alarm f }) :=
      { Kept.refl s with
        learned := fun ⟨hpair, _, hfactor⟩ => ⟨hpair, tuned_settings_inRange o _ _ (factorOf_range hf), hfactor⟩ }
    exact (actOnFactor_kept _).comp ((actOnReleaseSettle_kept _).comp ((actOnHoldoffLimit_kept _).comp
      ((actOnLossSettings_kept _ _).comp hset)))
  · exact .refl s

theorem takenClearBoard_kept : Kept s (takenClearBoard s).1 := by
  unfold takenClearBoard; split
  · split
    · dsimp only [done]
      exact .modVrd s rfl rfl
    · exact .refl s
  · exact .refl s
  · exact .refl s

theorem takenSetProbe_kept (mode : Byte) (limit : BitVec 32) : Kept s (takenSetProbe mode limit s).1 := by
  unfold takenSetProbe; split
  · exact .refl s
  · next fetch _ =>
    have hrange := clampTo_range (lo := 1) (hi := 65535) (by omega) limit.toNat
    have hswitched : Kept s (if s.echo.fetchCheck ∧ ¬ fetch then switchProbeOff s else s) :=
      .ite (switchProbeOff_kept s) (.refl s)
    have hset := hswitched.trans (u := State.modEcho (fun e => { e with fetchCheck := fetch, waitLimit := _ }) _)
      { Kept.refl _ with wait := fun _ => hrange }
    exact (prbTake_keeps _).comp (.ite ((starveInHand_kept _).comp hset) hset)

theorem takenProbeLine_kept (a : BitVec 40) : Kept s (takenProbeLine a s).1 := by
  unfold takenProbeLine; split
  · exact .refl s
  split
  · exact .refl s
  exact (prbTake_keeps _).comp (.modEcho s le_rfl rfl)

theorem takenReadProbe_kept : Kept s (takenReadProbe s).1 := by
  unfold takenReadProbe; dsimp only
  exact .modEcho s le_rfl rfl

theorem takenSetTime_kept (sec : BitVec 32) (tick : BitVec 16) : Kept s (takenSetTime sec tick s).1 := by
  unfold takenSetTime; split
  · exact .refl s
  · next h => exact { Kept.refl s with tick := fun _ => Nat.le_of_not_lt h }

theorem takenReadStream_kept (b : Byte) : Kept s (takenReadStream b s).1 := by
  unfold takenReadStream; split <;> exact .refl s

theorem takenReadPair_kept (b : Byte) : Kept s (takenReadPair b s).1 := by
  unfold takenReadPair; split <;> exact .refl s

theorem takenReadEstimate_kept (b : Byte) : Kept s (takenReadEstimate b s).1 := by
  unfold takenReadEstimate; split <;> exact .refl s

theorem takenReadSource_kept (b : Byte) : Kept s (takenReadSource b s).1 := by
  unfold takenReadSource; split <;> exact .refl s

end

/-! ### Every command -/

/-- The commands that write a descriptor, an enable or the window lookup. -/
def configures : Instr → Bool
  | .powerOnReset _ | .setStream _ _ | .enableStream _ _ | .disableStream _ _ | .setPair _ _ | .resetPart _ => true
  | _ => false

/-- A command that configures no stream and no pair keeps what `Kept` says. -/
theorem exec_kept (c : Instr) (hc : configures c = false) (s : State) : Leads (Kept s) (exec c s) := by
  cases c with
  | powerOnReset | setStream | enableStream | disableStream | setPair | resetPart => cases hc
  | tickBoundary live => exact tickBoundary_kept s live
  | rowActivate b row => exact .next (setBank_kept s b _)
  | bankPrecharge b => exact .next (setBank_kept s b _)
  | rankPrecharge rank =>
    have h := closeBanks_rowsOnly (banksOfRank rank) s.tap
    exact .next (.modTap s (congrArg Tap.lookup h :) fun k => (congrArg Tap.absence h).symm ▸ k)
  | columnCommand b column op length auto => exact columnCommand_kept s b column op length auto
  | writeDataComplete which data mask dur => exact writeDataComplete_kept s which data mask dur
  | readDataComplete which data dur => exact readDataComplete_kept s which data dur
  | corTakeRecord => exact corTakeRecord_kept s
  | assemblyAbandon n slot => exact assemblyAbandon_kept s n slot
  | silence n => exact silence_kept s n
  | entryExpiry p => exact .next (examineOpen_kept p s)
  | entryLoss p => exact .next (examineLate_kept p s)
  | windowEnd p => exact .next (.ite (endWindow_kept p s) (.refl s))
  | quiesceOverrun p => exact .next (.ite (overrunQuiesce_kept p s) (.refl s))
  | pulseMissed n => exact .next (.ite (missPulse_kept s n) (.refl s))
  | echoOverdue => exact echoOverdue_kept s
  | probeGrant => exact probeGrant_kept s
  | probeDataReturn data abandoned => exact probeDataReturn_kept s data abandoned
  | probeGrantReleased => exact probeGrantReleased_kept s
  | grantWaitExpiry => exact .next (.ite ((prbTake_keeps _).comp (starveInHand_kept s)) (.refl s))
  | clockStop => exact clockStop_kept s
  | channelLoss => exact .next (.ite (enterLost_kept s) (.refl s))
  | clockResume => exact .next (.ite (.modTap s rfl fun _ => Nat.zero_le _) (.refl s))
  | returnAfterLoss => exact returnAfterLoss_kept s
  | boardResetAsserted => exact .next (.ite (.refl s) ((startDiscontinuity_kept _).comp (.modTap s rfl id)))
  | boardResetReleased =>
    exact .next (.ite ((prbTake_keeps _).comp ((endDiscontinuity_kept _).comp (.modTap s rfl id))) (.refl s))
  | calmNJudgement high => exact calmNJudgement_kept s high
  | holdoffRelease => exact holdoffRelease_kept s
  | holdoffLimit => exact holdoffLimit_kept s
  | addressCharacter l ch => exact .next (.modLink s (receive_buffer l s.straps.stn s.clock ch))
  | dataCharacter l ch => exact .next (.modLink s (receive_buffer l s.straps.stn s.clock ch))
  | frameGapTimeout l =>
    refine .next (.modLink s fun h => ?_)
    split
    · rw [gapTimeout_buffer]; exact h
    · exact h
  | replyComplete l => exact .next (.modLink s fun h => by rw [replyDone_buffer]; exact h)
  | abandonedReplyStop l => exact .next (.modLink s fun h => by split <;> exact h)
  | readSummary l => exact .next (answer_kept l _ (.refl s))
  | readStream l b => exact .next (answer_kept l _ (takenReadStream_kept s b))
  | readPair l b => exact .next (answer_kept l _ (takenReadPair_kept s b))
  | enablePair l b => exact .next (answer_kept l _ (takenEnablePair_kept s b))
  | retirePair l b => exact .next (answer_kept l _ (takenRetirePair_kept s b))
  | clearPair l b => exact .next (answer_kept l _ (takenClearPair_kept s b))
  | readEstimate l b => exact .next (answer_kept l _ (takenReadEstimate_kept s b))
  | setSource l o => exact .next (answer_kept l _ (takenSetSource_kept s o))
  | readSource l b => exact .next (answer_kept l _ (takenReadSource_kept s b))
  | setThreshold l target v => exact .next (answer_kept l _ (takenSetThreshold_kept s target v))
  | claim l => exact .next (answer_kept l _ (.refl s))
  | acknowledge l b => exact .next (answer_kept l _ (takenAcknowledge_kept s l b))
  | setVerdict l o => exact .next (answer_kept l _ (takenSetVerdict_kept s o))
  | readVerdict l => exact .next (answer_kept l _ (.refl s))
  | clearBoard l => exact .next (answer_kept l _ (takenClearBoard_kept s))
  | setProbe l mode limit => exact .next (answer_kept l _ (takenSetProbe_kept s mode limit))
  | probeLine l a => exact .next (answer_kept l _ (takenProbeLine_kept s a))
  | readProbe l => exact .next (answer_kept l _ (takenReadProbe_kept s))
  | setTime l sec tick => exact .next (answer_kept l _ (takenSetTime_kept s sec tick))
  | readTime l => exact .next (answer_kept l _ (.refl s))

end Sys2Proof.Machine
end

/-! ## The reset state, the commands that configure streams and pairs, and the invariants of every step -/
section

namespace Sys2Proof.Machine

/-! ### The power-on state (R39, R68, R75, R102, R127, R141, R155, R169) -/

theorem powerOn_stream (straps : Straps) (n : StreamIx) : (State.powerOn straps).stream n = Stream.initial := by
  simp [State.powerOn, State.stream]

theorem powerOn_pair (straps : Straps) (p : PairIx) : (State.powerOn straps).pair p = Pair.initial := by
  simp [State.powerOn, State.pair]

theorem powerOn_source (straps : Straps) (i : SourceIx) : (State.powerOn straps).source i = Source.initial := by
  simp [State.powerOn, State.source, Iar.initial]

theorem powerOn_atReset (straps : Straps) : AtReset (State.powerOn straps) := by
  unfold AtReset
  simp only [powerOn_stream, powerOn_pair, powerOn_source]
  exact ⟨rfl, rfl, rfl, rfl, rfl, rfl, rfl, rfl, rfl, rfl, rfl, fun _ => ⟨rfl, rfl, rfl, rfl, rfl, rfl, rfl, rfl, rfl⟩,
    fun _ => ⟨rfl, rfl, rfl, rfl, rfl, rfl, rfl, rfl⟩, rfl, rfl, fun _ => rfl, rfl, rfl⟩

/-- The blocks that RESET_PART resets are at their reset values (R168). -/
theorem resetBlocks_atReset (s : State) : AtReset (resetBlocks s) := by
  obtain ⟨-, -, -, -, -, -, -, -, -, -, -, hstreams, hpairs, -, -, hsources, -⟩ := powerOn_atReset s.straps
  exact ⟨rfl, rfl, rfl, rfl, rfl, rfl, rfl, rfl, rfl, rfl, rfl, hstreams, hpairs, rfl, rfl, hsources, rfl, rfl⟩

/-- The reset values say nothing of the links, of the queue of commands or of the straps. -/
theorem AtReset.links {s : State} (h : AtReset s) (a b : Link) (q : List Instr) :
    AtReset { s with linkA := a, linkB := b, pending := q } := h

theorem modLink_eq (s : State) (m : Manager) (f : Link → Link) :
    s.modLink m f = { s with linkA := (s.modLink m f).linkA, linkB := (s.modLink m f).linkB } := by
  cases m <;> rfl

theorem AtReset.modLink {s : State} (h : AtReset s) (m : Manager) (f : Link → Link) : AtReset (s.modLink m f) := by
  rw [modLink_eq]; exact h

/-! ### The invariants at the reset values -/

namespace AtReset

variable {t : State} (h : AtReset t)
include h

theorem streams (n : StreamIx) : (t.stream n).desc = .default ∧ (t.stream n).enabled = false
    ∧ (t.stream n).assemblies = [] ∧ (t.stream n).seq = .unsynchronised ∧ (t.stream n).pulse.missCount = 0
    ∧ (t.stream n).pulse.timer = .stopped := by
  obtain ⟨-, -, -, -, -, -, -, -, -, -, -, hstreams, -⟩ := h
  obtain ⟨hdesc, hen, hasm, hseq, -, -, -, -, hpulse⟩ := hstreams n
  exact ⟨hdesc, hen, hasm, hseq, by rw [hpulse], by rw [hpulse]⟩

theorem pairs (p : PairIx) : t.pair p = Pair.initial := by
  obtain ⟨-, -, -, -, -, -, -, -, -, -, -, -, hpairs, -⟩ := h
  obtain ⟨hdesc, hhealth, hopen, hlate, hcounters, hest, htimeout, hhev⟩ := hpairs p
  rw [show t.pair p = ⟨(t.pair p).desc, (t.pair p).health, (t.pair p).openList, (t.pair p).lateList, (t.pair p).counters,
    (t.pair p).est, (t.pair p).timeout, (t.pair p).hev⟩ from rfl, hdesc, hhealth, hopen, hlate, hcounters, hest, htimeout,
    hhev]
  rfl

theorem sources (i : SourceIx) : t.source i = Source.initial := by
  obtain ⟨-, -, -, -, -, -, -, -, -, -, -, -, -, -, -, hsources, -⟩ := h
  exact hsources i

theorem echoInitial : t.echo = Echo.initial := by
  obtain ⟨-, -, -, -, -, -, -, -, -, -, -, -, -, hecho, -⟩ := h
  exact hecho

theorem vrdInitial : t.vrd = { Vrd.initial with sensedHigh := t.vrd.sensedHigh } := by
  obtain ⟨-, -, -, -, -, -, -, -, -, -, -, -, -, -, hvrd, -⟩ := h
  exact hvrd

theorem queue : t.commitQueue = [] ∧ t.tap.lookup = [] := by
  obtain ⟨-, hqueue, hlookup, -⟩ := h
  exact ⟨hqueue, hlookup⟩

theorem thresholds : t.iar.thresholdA = 0 ∧ t.iar.thresholdB = 0 := by
  obtain ⟨-, -, -, -, -, -, -, -, -, -, -, -, -, -, -, -, hA, hB⟩ := h
  exact ⟨hA, hB⟩

theorem tablesFit (hA : t.linkA.buffer.length ≤ 2) (hB : t.linkB.buffer.length ≤ 2) : TablesFit t := by
  refine ⟨by rw [h.queue.1]; exact Nat.zero_le _, by rw [h.echoInitial]; exact Nat.zero_le _, fun n => ?_, ?_, hA, hB⟩
  · obtain ⟨-, -, hasm, -⟩ := h.streams n
    rw [hasm]; exact Nat.zero_le _
  · simp only [entriesInUse_eq, h.pairs]
    decide

theorem assembliesDistinct : AssembliesDistinct t := fun n => by
  obtain ⟨-, -, hasm, -⟩ := h.streams n
  rw [hasm]; exact List.nodup_nil

theorem placeZeroClear : PlaceZeroClear t := (placeZeroClear_iff t).mpr fun n => by
  obtain ⟨-, -, -, hseq, -⟩ := h.streams n
  rw [hseq]; trivial

theorem lookupHolds : LookupHolds t := by
  have hen (n : StreamIx) : (t.stream n).enabled = false := by
    obtain ⟨-, hen, -⟩ := h.streams n
    exact hen
  refine ⟨?_, fun n _ _ hn => absurd hn (by rw [hen n]; decide)⟩
  rw [h.queue.2]
  simp [enabledWindows, hen]

theorem membersHold : MembersHold t := by
  have hreq (p : PairIx) : (t.pair p).desc.requestStream = none := by rw [h.pairs]; rfl
  have hcomp (p : PairIx) : (t.pair p).desc.completionStream = none := by rw [h.pairs]; rfl
  refine ⟨fun p n k => ?_, fun p n k => ?_, fun p r n k => ?_⟩
  · rw [hreq] at k; cases k
  · rw [hcomp] at k; cases k
  · rw [hreq, hcomp] at k
    rcases k with k | k <;> cases k

theorem rangesHold (htick : t.stamp.tick ≤ 9999) (habs : t.tap.absence ≤ 65535) : RangesHold t := by
  have hstream (n : StreamIx) : (t.stream n).desc.inRange ∧ (t.stream n).pulse.missCount ≤ 15 := by
    obtain ⟨hdesc, -, -, -, hmiss, -⟩ := h.streams n
    rw [hdesc, hmiss]
    unfold StreamDesc.inRange
    decide
  have hpair : Pair.initial.desc.inRange ∧ Pair.initial.est.inRange := by
    refine ⟨by unfold PairDesc.inRange; decide, by decide, by decide, by decide, fun l k => by cases k⟩
  obtain ⟨hA, hB⟩ := h.thresholds
  unfold RangesHold
  rw [h.vrdInitial, h.echoInitial, hA, hB]
  simp only [h.pairs, h.sources]
  exact ⟨hstream, fun _ => ⟨hpair.1, hpair.2, by decide, by decide⟩, by unfold VerdictSettings.inRange; decide,
    .inl rfl, fun _ => Nat.zero_le _, Nat.zero_le _, Nat.zero_le _, by decide, by decide, htick, habs⟩

/-- No row before a reset bears on the invariants after it. -/
theorem preserved (s : State) (hA : t.linkA.buffer.length ≤ 2) (hB : t.linkB.buffer.length ≤ 2)
    (htick : s.stamp.tick ≤ 9999 → t.stamp.tick ≤ 9999) (habs : s.tap.absence ≤ 65535 → t.tap.absence ≤ 65535) :
    Preserved s t where
  tables _ := h.tablesFit hA hB
  distinct _ := h.assembliesDistinct
  clear _ := h.placeZeroClear
  lookup _ := h.lookupHolds
  members _ := h.membersHold
  ranges := fun ⟨_, _, _, _, _, _, _, _, _, ktick, kabs⟩ => h.rangesHold (htick ktick) (habs kabs)

theorem entriesHold : EntriesHold t := fun p => by
  rw [h.pairs]; decide

theorem tagsDistinct : TagsDistinct t := fun p => by
  rw [h.pairs]; decide

theorem countersBalance : CountersBalance t := fun p => by
  rw [h.pairs]
  unfold Pair.balanced
  decide

theorem timeoutsHold : TimeoutsHold t := by
  unfold TimeoutsHold
  rw [h.vrdInitial]
  simp only [h.pairs]
  exact ⟨fun _ => by decide, rfl⟩

theorem healthHolds : HealthHolds t := fun p => by
  rw [h.pairs]
  exact ⟨rfl, fun _ k => (by cases k), rfl, fun _ => ⟨rfl, rfl⟩, Nat.zero_le _⟩

theorem triggersHold : TriggersHold t := by
  unfold TriggersHold
  rw [h.vrdInitial]
  simp only [h.pairs]
  exact ⟨fun _ => by decide, by decide, (Bool.and_false _).symm⟩

theorem pulseTriggersHold : PulseTriggersHold t := by
  refine ⟨fun r hr => ?_, fun n => ?_⟩
  · rw [h.queue.1] at hr; cases hr
  · obtain ⟨hdesc, hen, -, -, hmiss, htimer⟩ := h.streams n
    dsimp only
    rw [h.vrdInitial, hdesc, hmiss, htimer]
    exact ⟨by simp [Vrd.initial, TriggerSet.empty, TriggerSet.has, StreamDesc.default], by decide,
      by decide, fun _ => ⟨rfl, rfl⟩⟩

theorem boardResetQuiet : BoardResetQuiet t := fun _ => by
  rw [h.echoInitial]
  simp only [h.pairs]
  refine ⟨h.queue.1, fun n => ?_, fun _ => ⟨rfl, rfl⟩, rfl, rfl, rfl⟩
  obtain ⟨-, -, hasm, -⟩ := h.streams n
  exact hasm

theorem sourcesHold : SourcesHold t := fun i => by
  rw [h.sources]; exact .inl ⟨rfl, rfl, rfl, rfl⟩

/-- With no source pending neither attention line is driven (R149, R150). -/
theorem attention (m : Manager) : attentionLow t m = false := by
  have hclaim (i : SourceIx) : claimable t m i = false := by
    unfold claimable Source.claimable
    rw [h.sources]
    rfl
  have hwinner : winner t m = none :=
    foldl_keeps (P := (· = none)) (fun best i hb => by simp [betterSource, hclaim, hb]) allSources rfl
  rw [attentionLow, hwinner]
  rfl

end AtReset

theorem initial_holds : Link.initial.holds := ⟨fun _ => .inl rfl, fun _ k => by cases k⟩

/-- Settles O5: fourteen of the invariants hold wherever the blocks are at their reset values, and the links are empty. -/
theorem resetMeetsTheInvariants : Obligations.ResetMeetsTheInvariants := fun straps => by
  have h := powerOn_atReset straps
  exact ⟨h.tablesFit (Nat.zero_le _) (Nat.zero_le _), h.assembliesDistinct, h.placeZeroClear, h.lookupHolds, h.membersHold,
    h.entriesHold, h.tagsDistinct, h.countersBalance, h.timeoutsHold, h.healthHolds, h.triggersHold, h.pulseTriggersHold,
    h.boardResetQuiet, h.sourcesHold, h.rangesHold (Nat.zero_le _) (Nat.zero_le _), initial_holds, initial_holds⟩

/-! ### The two resets -/

theorem powerOnReset_atReset (straps : Straps) (a b : Link) (q : List Instr) :
    AtReset { State.powerOn straps with linkA := a, linkB := b, pending := q } := (powerOn_atReset straps).links a b q

/-- A command in HANDING is dropped by the reset, and its row is void (R168, R169). -/
theorem dropped_voided {l : Link} {c : Instr} {ov : Bool} (h : l.intake = .handing c ov) :
    ({ Link.initial with dropped := l.dropHanded } : Link).dropped = some c := by
  simp [Link.dropHanded, h]

/-- Settles O3. -/
theorem powerOnResetSetsEveryBlock : Obligations.PowerOnResetSetsEveryBlock := by
  intro straps s
  have h := powerOnReset_atReset straps { Link.initial with dropped := s.linkA.dropHanded }
    { Link.initial with dropped := s.linkB.dropHanded } s.pending
  have hbank (b : BankAddr) : Tap.initial.bank b = .closed := by simp [Tap.initial, Tap.bank]
  refine ⟨_, rfl, h, rfl, rfl, hbank, rfl, rfl, rfl, rfl, fun m => ?_, rfl, rfl, rfl, h.attention .A, h.attention .B⟩
  cases m with
  | A => exact ⟨rfl, rfl, rfl, rfl, rfl, rfl, rfl, fun c ov hc => ⟨dropped_voided hc, fun k o e => by cases e⟩⟩
  | B => exact ⟨rfl, rfl, rfl, rfl, rfl, rfl, rfl, fun c ov hc => ⟨dropped_voided hc, fun k o e => by cases e⟩⟩

theorem powerOnReset_preserved (straps : Straps) (s : State) :
    Leads (Preserved s) (exec (.powerOnReset straps) s) :=
  .next ((powerOnReset_atReset straps _ _ _).preserved s (Nat.zero_le _) (Nat.zero_le _) (fun _ => Nat.zero_le _)
    (fun _ => Nat.zero_le _))

theorem resetCarrying_buffer (c : Instr) (l : Link) : (l.resetCarrying c).buffer = [] := by
  unfold Link.resetCarrying
  split
  · next ov _ =>
    dsimp only
    split
    · split <;> cases ov <;> rfl
    · rfl
  · rfl

theorem resetPart_preserved (l : Manager) (s : State) : Leads (Preserved s) (exec (.resetPart l) s) := by
  refine .next ?_
  rw [unlessVoid]
  split
  · exact (Kept.modLink s id).preserved
  · refine (((resetBlocks_atReset s).modLink l _).modLink (otherManager l) _).preserved s ?_ ?_ ?_ ?_
    · cases l with
      | A => exact (congrArg List.length (resetCarrying_buffer _ _)).le.trans (Nat.zero_le _)
      | B => exact Nat.zero_le _
    · cases l with
      | A => exact Nat.zero_le _
      | B => exact (congrArg List.length (resetCarrying_buffer _ _)).le.trans (Nat.zero_le _)
    · rw [modLink_stamp, modLink_stamp]; exact id
    · rw [modLink_tap, modLink_tap]; exact id

/-! ### A stream is configured (R17, R18, R19) -/

theorem pairOf_none {s : State} {n : StreamIx} : s.pairOf n = none
    ↔ ∀ p : PairIx, (s.pair p).desc.requestStream ≠ some n ∧ (s.pair p).desc.completionStream ≠ some n := by
  simp [State.pairOf, List.find?_eq_none, mem_allPairs]

/-- What a configuration of a stream leaves of it. -/
structure Stream.Configured (x y : Stream) : Prop where
  fits : x.assemblies.length ≤ 4 → y.assemblies.length ≤ 4
  distinct : (x.assemblies.map Assembly.slot).Nodup → (y.assemblies.map Assembly.slot).Nodup
  clear : x.seq.Clear → y.seq.Clear
  misses : x.pulse.missCount ≤ 15 → y.pulse.missCount ≤ 15
  range : x.desc.inRange → y.desc.inRange

/-- A stream that enters or leaves service holds nothing. -/
theorem Stream.Configured.emptied {x y : Stream} (hasm : y.assemblies = []) (hseq : y.seq = .unsynchronised)
    (hmiss : y.pulse.missCount = 0) (hdesc : y.desc = x.desc) : x.Configured y where
  fits _ := by rw [hasm]; exact Nat.zero_le _
  distinct _ := by rw [hasm]; exact List.nodup_nil
  clear _ := by rw [hseq]; trivial
  misses _ := by rw [hmiss]; exact Nat.zero_le _
  range h := hdesc ▸ h

/-- A stream configured, and the lookup with it: what is left to show is the lookup. -/
theorem configured_preserved {s : State} {n : StreamIx} {f : Stream → Stream} {ws : List Window}
    (hx : (s.stream n).Configured (f (s.stream n)))
    (hrole : (f (s.stream n)).desc.role = (s.stream n).desc.role ∨ s.pairOf n = none)
    (hlookup : LookupHolds s → LookupHolds ((s.modStream n f).modTap fun t => { t with lookup := ws })) :
    Preserved s ((s.modStream n f).modTap fun t => { t with lookup := ws }) where
  tables := fun ⟨hqueue, hecho, hassemblies, hrest⟩ => by
    refine ⟨hqueue, hecho, fun m => ?_, hrest⟩
    rw [modTap_stream, modStream_place]
    split
    · next e => subst e; exact hx.fits (hassemblies m)
    · exact hassemblies m
  distinct h m := by
    rw [modTap_stream, modStream_place]
    split
    · next e => subst e; exact hx.distinct (h m)
    · exact h m
  clear h := (placeZeroClear_iff _).mpr fun m => by
    rw [modTap_stream, modStream_place]
    split
    · next e => subst e; exact hx.clear (h m)
    · exact h m
  lookup := hlookup
  members := fun ⟨hreq, hcomp, hown⟩ => by
    have hkept (p : PairIx) (m : StreamIx)
        (h : (s.pair p).desc.requestStream = some m ∨ (s.pair p).desc.completionStream = some m) :
        ((s.modStream n f).stream m).desc.role = (s.stream m).desc.role := by
      rw [modStream_place]
      split
      · next e =>
        subst e
        refine hrole.resolve_right fun hnone => ?_
        obtain ⟨h1, h2⟩ := pairOf_none.mp hnone p
        exact h.elim h1 h2
      · rfl
    exact ⟨fun p m h => (hkept p m (.inl h)).trans (hreq p m h), fun p m h => (hkept p m (.inr h)).trans (hcomp p m h),
      hown⟩
  ranges := fun ⟨hstream, hrest⟩ => by
    refine ⟨fun m => ?_, hrest⟩
    obtain ⟨hdesc, hmiss⟩ := hstream m
    rw [modTap_stream, modStream_place]
    split
    · next e => subst e; exact ⟨hx.range hdesc, hx.misses hmiss⟩
    · exact ⟨hdesc, hmiss⟩

/-- The structural fields that SET_STREAM takes are in the ranges of Table 3.1 (R17). -/
theorem structural_range {o : SetStreamOps} {d : StreamDesc} (h : o.structural? = some d) :
    d.base % 4096 = 0 ∧ slotCountOk d.slotCount = true ∧ d.base + d.slotCount * d.slotSize.bytes ≤ 2 ^ 36 := by
  simp only [SetStreamOps.structural?, Option.bind_eq_bind, Option.bind_eq_some_iff] at h
  obtain ⟨role, -, size, -, mode, -, polarity, -, fence, -, h⟩ := h
  split at h
  · next hc => cases h; exact hc
  · cases h

theorem tuned_stream_inRange {o : SetStreamOps} {d : StreamDesc} (h : o.structural? = some d) : (o.tuned d).inRange := by
  obtain ⟨hbase, hcount, hsize⟩ := structural_range h
  refine ⟨hbase, hcount, hsize, ?_⟩
  simp only [SetStreamOps.tuned, clampTo]
  omega

theorem takenSetStream_preserved (o : SetStreamOps) (s : State) : Preserved s (takenSetStream o s).1 := by
  unfold takenSetStream; split
  · exact (Kept.refl s).preserved
  next n _ =>
  split
  · exact (Kept.refl s).preserved
  next hen =>
  split
  · exact (Kept.refl s).preserved
  next d hd =>
  split
  · exact (Kept.refl s).preserved
  next hrole =>
  refine configured_preserved (s := s) (n := n) (f := fun x => { x with desc := o.tuned d }) (ws := s.tap.lookup)
    ⟨id, id, id, id, fun _ => tuned_stream_inRange hd⟩ ?_ fun ⟨hl, hmeets⟩ => ?_
  · by_cases hr : d.role = (s.stream n).desc.role
    · exact .inl hr
    · exact .inr (Option.not_isSome_iff_eq_none.mp fun k => hrole ⟨hr, k⟩)
  · have hplace : ∀ m, ((s.modStream n fun x => { x with desc := o.tuned d }).stream m).enabled = (s.stream m).enabled := by
      intro m
      rw [modStream_place]; split <;> rfl
    have hdesc : ∀ m, (s.stream m).enabled = true →
        ((s.modStream n fun x => { x with desc := o.tuned d }).stream m).desc = (s.stream m).desc := by
      intro m hm
      rw [modStream_other]
      rintro rfl
      exact hen hm
    refine ⟨hl.trans (enabledWindows_congr hplace hdesc).symm, fun a b hne ha hb => ?_⟩
    rw [modTap_stream, hplace] at ha hb
    rw [modTap_stream, modTap_stream, hdesc a ha, hdesc b hb]
    exact hmeets a b hne ha hb

theorem meets_comm (v w : Window) : v.meets w = w.meets v := by
  unfold Window.meets
  exact decide_eq_decide.mpr And.comm

theorem overlapsEnabled_false {s : State} {n m : StreamIx} (h : overlapsEnabled n s = false)
    (hm : (s.stream m).enabled = true) : (windowOf m (s.stream m).desc).meets (windowOf n (s.stream n).desc) = false := by
  have hall := List.any_eq_false.mp h _ (mem_enabledWindows.mpr ⟨m, hm, rfl⟩)
  simpa using hall

theorem takenEnableStream_preserved (b : Byte) (s : State) : Preserved s (takenEnableStream b s).1 := by
  unfold takenEnableStream; split
  · exact (Kept.refl s).preserved
  next n _ =>
  split
  · exact (Kept.refl s).preserved
  split
  · exact (Kept.refl s).preserved
  next hoverlap =>
  have hfree : overlapsEnabled n s = false := by simpa using hoverlap
  have hdesc (m : StreamIx) :
      ((s.modStream n (Stream.started s.clock s.tap.brstAsserted)).stream m).desc = (s.stream m).desc := by
    rw [modStream_place]; split <;> rfl
  have hothers {m : StreamIx} (hm : m ≠ n)
      (h : ((s.modStream n (Stream.started s.clock s.tap.brstAsserted)).stream m).enabled = true) :
      (s.stream m).enabled = true := by rwa [modStream_other s hm] at h
  refine configured_preserved
    (.emptied rfl rfl rfl rfl) (.inl rfl) fun ⟨_, hmeets⟩ => ⟨rfl, fun a c hne ha hc => ?_⟩
  rw [modTap_stream] at ha hc
  rw [modTap_stream, modTap_stream, hdesc, hdesc]
  by_cases han : a = n
  · subst han
    rw [meets_comm]
    exact overlapsEnabled_false hfree (hothers (Ne.symm hne) hc)
  · by_cases hcn : c = n
    · subst hcn
      exact overlapsEnabled_false hfree (hothers han ha)
    · exact hmeets a c hne (hothers han ha) (hothers hcn hc)

theorem takenDisableStream_preserved (b : Byte) (s : State) : Preserved s (takenDisableStream b s).1 := by
  unfold takenDisableStream; split
  · exact (Kept.refl s).preserved
  next n _ =>
  split
  · have hdesc (m : StreamIx) : ((s.modStream n Stream.stopped).stream m).desc = (s.stream m).desc := by
      rw [modStream_place]; split <;> rfl
    have henabled {m : StreamIx} (h : ((s.modStream n Stream.stopped).stream m).enabled = true) :
        (s.stream m).enabled = true := by
      rw [modStream_place] at h
      split at h
      · cases h
      · exact h
    have hstopped : Preserved s (rebuildLookup (s.modStream n Stream.stopped)) := by
      refine configured_preserved
        (.emptied rfl rfl rfl rfl) (.inl rfl) fun ⟨_, hmeets⟩ => ⟨rfl, fun a c hne ha hc => ?_⟩
      rw [modTap_stream] at ha hc
      rw [modTap_stream, modTap_stream, hdesc, hdesc]
      exact hmeets a c hne (henabled ha) (henabled hc)
    have hdropped (t : State) : Kept t { t with commitQueue := t.commitQueue.filter fun r => decide (r.stream ≠ n) } :=
      { Kept.refl t with queue := fun h => (List.length_filter_le ..).trans h }
    exact hstopped.trans ((prbTake_keeps _).comp ((withdrawStream_kept _ _).comp
      ((leaveTrigger_kept _ _).comp (hdropped _)))).preserved
  · exact (Kept.refl s).preserved

/-! ### A pair is configured (R43, R44) -/

theorem tuned_pair_inRange (o : SetPairOps) (req comp : Option StreamIx) (fetch fence : Bool)
    (h : ¬ (o.tuned req comp fetch fence).tceil < (o.tuned req comp fetch fence).tfloor) :
    (o.tuned req comp fetch fence).inRange := by
  unfold PairDesc.inRange
  simp only [SetPairOps.tuned, clampTo] at h ⊢
  omega

/-- A stream that no other pair names (R43, fifth check). -/
theorem unclaimedBy_some {s : State} {p r : PairIx} {n : StreamIx} (h : unclaimedBy s p (some n) = true)
    (hr : (s.pair r).desc.requestStream = some n ∨ (s.pair r).desc.completionStream = some n) : r = p := by
  by_contra hne
  have hall := List.all_eq_true.mp h r (mem_allPairs r)
  rcases hr with hr | hr <;> simp [hne, hr] at hall

theorem hasRole_some {s : State} {role : Role} {n : StreamIx} (h : hasRole s role (some n) = true) :
    (s.stream n).desc.role = role := of_decide_eq_true h

/-- A checked descriptor written to a pair (R43). -/
theorem describe_preserved {s : State} {p : PairIx} {d : PairDesc} (hrange : d.inRange)
    (hreq : hasRole s .request d.requestStream = true) (hcomp : hasRole s .completion d.completionStream = true)
    (hown : unclaimedBy s p d.requestStream = true) (hown' : unclaimedBy s p d.completionStream = true) :
    Preserved s (s.modPair p fun q => { q with desc := d }) where
  tables := fun ⟨hqueue, hecho, hassemblies, hpool, hbuffers⟩ => by
    refine ⟨hqueue, hecho, hassemblies, (entriesInUse_mono fun r => ?_).trans hpool, hbuffers⟩
    rw [modPair_place]
    split
    · exact le_rfl
    · exact le_rfl
  distinct := id
  clear := id
  lookup := id
  members := fun ⟨kreq, kcomp, kown⟩ => by
    have hclaimed {r : PairIx} {n : StreamIx}
        (h : d.requestStream = some n ∨ d.completionStream = some n)
        (hr : (s.pair r).desc.requestStream = some n ∨ (s.pair r).desc.completionStream = some n) : r = p := by
      rcases h with h | h
      · exact unclaimedBy_some (h ▸ hown) hr
      · exact unclaimedBy_some (h ▸ hown') hr
    refine ⟨fun r n h => ?_, fun r n h => ?_, fun r r' n h h' => ?_⟩
    · rw [modPair_place] at h
      split at h
      · exact hasRole_some (h ▸ hreq)
      · exact kreq r n h
    · rw [modPair_place] at h
      split at h
      · exact hasRole_some (h ▸ hcomp)
      · exact kcomp r n h
    · rw [modPair_place] at h h'
      split at h
      · next e =>
        split at h'
        · next e' => exact e.trans e'.symm
        · exact e.trans (hclaimed h h').symm
      · split at h'
        · next e' => exact (hclaimed h' h).trans e'.symm
        · exact kown r r' n h h'
  ranges := fun ⟨hstream, hpair, hrest⟩ => by
    refine ⟨hstream, fun r => ?_, hrest⟩
    obtain ⟨-, hlearned⟩ := hpair r
    rw [modPair_place]
    split
    · exact ⟨hrange, hlearned⟩
    · exact hpair r

theorem takenSetPair_preserved (o : SetPairOps) (s : State) : Preserved s (takenSetPair o s).1 := by
  unfold takenSetPair; split
  · exact (Kept.refl s).preserved
  split
  · exact (Kept.refl s).preserved
  split
  · next req comp fetch fence _ _ _ _ =>
    dsimp only
    split
    · exact (Kept.refl s).preserved
    next hroles =>
    split
    · exact (Kept.refl s).preserved
    next hclaims =>
    split
    · exact (Kept.refl s).preserved
    next hceil =>
    obtain ⟨hreq, hcomp⟩ := Decidable.not_not.mp hroles
    obtain ⟨hown, hown'⟩ := Decidable.not_not.mp hclaims
    exact (describe_preserved (tuned_pair_inRange o req comp fetch fence hceil) hreq hcomp hown hown').trans
      (recomputeT_kept _ _).preserved
  · exact (Kept.refl s).preserved

/-! ### Every step -/

theorem exec_preserved (c : Instr) (s : State) : Leads (Preserved s) (exec c s) := by
  cases hc : configures c with
  | false => exact (exec_kept c hc s).mono fun _ h => h.preserved
  | true =>
    cases c with
    | powerOnReset straps => exact powerOnReset_preserved straps s
    | setStream l o => exact .next (answer_preserved l _ (takenSetStream_preserved o s))
    | enableStream l b => exact .next (answer_preserved l _ (takenEnableStream_preserved b s))
    | disableStream l b => exact .next (answer_preserved l _ (takenDisableStream_preserved b s))
    | setPair l o => exact .next (answer_preserved l _ (takenSetPair_preserved o s))
    | resetPart l => exact resetPart_preserved l s
    | _ => cases hc

theorem step_preserved {s t : State} (h : step s = .next t) : Preserved s t := by
  unfold step at h
  split at h
  · cases h; exact (Kept.refl s).preserved
  · next c rest _ =>
    have htaken : Kept s { s with pending := rest } := { Kept.refl s with lookup := rfl }
    exact htaken.preserved.trans (exec_preserved c _ t h)

/-- Settles O9. -/
theorem stepKeepsTablesFit : Obligations.StepKeepsTablesFit := fun _ _ hs h => (step_preserved h).tables hs

/-- Settles O10. -/
theorem stepKeepsStreams : Obligations.StepKeepsStreams :=
  ⟨fun _ _ hs h => (step_preserved h).distinct hs, fun _ _ hs h => (step_preserved h).clear hs,
    fun _ _ hs h => (step_preserved h).lookup hs, fun _ _ hs h => (step_preserved h).members hs⟩

/-- Settles O16. -/
theorem stepKeepsRanges : Obligations.StepKeepsRanges := fun _ _ hs h => (step_preserved h).ranges hs

end Sys2Proof.Machine
end

/-! ## The sequence check, the signature and the assembly limit -/
section

namespace Sys2Proof.Machine

/-! ### The sequence check (R32) -/

/-- The places move down by the run of places set from place 0 on, and next rises by its length; with as many moves as there can be
places set, the run is passed whole. -/
theorem advancePlaces_run (fuel : Nat) (next : BitVec 32) (places : BitVec 4) (h : places.toNat < 2 ^ fuel) :
    ∃ k, k ≤ fuel ∧ (∀ j, j < k → places.getLsbD j = true) ∧ places.getLsbD k = false
      ∧ advancePlaces fuel next places = .synchronised (next + BitVec.ofNat 32 k) (places >>> k) := by
  induction fuel generalizing next places with
  | zero =>
    have hzero : places = 0 := BitVec.eq_of_toNat_eq (by simpa using h)
    exact ⟨0, le_rfl, fun _ hj => absurd hj (Nat.not_lt_zero _), by simp [hzero], by simp [advancePlaces]⟩
  | succ fuel ih =>
    by_cases hset : places.getLsbD 0 = true
    · have hmoved : (places >>> 1).toNat < 2 ^ fuel := by
        rw [BitVec.toNat_ushiftRight, Nat.shiftRight_eq_div_pow]
        omega
      obtain ⟨k, hk, hrun, hend, hadvance⟩ := ih (next + 1) (places >>> 1) hmoved
      have hplace (j : Nat) : (places >>> 1).getLsbD j = places.getLsbD (j + 1) := by
        rw [BitVec.getLsbD_ushiftRight, Nat.add_comm]
      refine ⟨k + 1, Nat.succ_le_succ hk, fun j hj => ?_, hplace k ▸ hend, ?_⟩
      · cases j with
        | zero => exact hset
        | succ j => exact hplace j ▸ hrun j (Nat.lt_of_succ_lt_succ hj)
      · rw [advancePlaces, if_pos hset, hadvance, BitVec.add_assoc, ← BitVec.shiftRight_add, Nat.add_comm k 1,
          BitVec.ofNat_add]
        rfl
    · exact ⟨0, Nat.zero_le _, fun _ hj => absurd hj (Nat.not_lt_zero _), by simpa using hset,
        by rw [advancePlaces, if_neg hset]; simp⟩

/-- Settles O30. -/
theorem sequenceCheck : Obligations.SequenceCheck := by
  intro span next sequence places _ hspan d set
  have hd : d = (sequence - next).toNat := rfl
  have hcheck : checkSequence span (.synchronised next places) sequence
      = if d < span then if places.getLsbD d = true then .stale else .accepted (advancePlaces 4 next set)
        else if d < 2 ^ 31 then .gap (.synchronised (sequence + 1) 0) (sequence - next) else .stale := rfl
  refine ⟨fun hlt hclear => ?_, fun hlt htaken => ?_, fun hle hlt => ?_, fun hle => ?_, rfl⟩
  · obtain ⟨k, hk, hrun, hend, hadvance⟩ := advancePlaces_run 4 next set set.isLt
    refine ⟨k, hk, hrun, hend, ?_⟩
    rw [hcheck, if_pos hlt, hclear, if_neg Bool.false_ne_true, hadvance]
  · rw [hcheck, if_pos hlt, if_pos htaken]
  · rw [hcheck, if_neg (Nat.not_lt.mpr hle), if_pos hlt]
  · rw [hcheck, if_neg (by omega), if_neg (Nat.not_lt.mpr hle)]

/-! ### The signature (R22, R33, R111) -/

theorem foldl_add_eq_sum {γ : Type} (f : γ → BitVec 32) (l : List γ) : l.foldl (fun a k => a + f k) 0 = (l.map f).sum := by
  rw [List.sum_eq_foldl, List.foldl_map]

/-- The number that the four bytes of a word make. -/
def wordNumber (d : LineData) (k : Fin 16) : Nat :=
  d[4 * k.1].toNat + 256 * d[4 * k.1 + 1].toNat + 65536 * d[4 * k.1 + 2].toNat + 16777216 * d[4 * k.1 + 3].toNat

theorem lineWord_eq_wordNumber (d : LineData) (k : Fin 16) : lineWord d k = (wordNumber d k : BitVec 32) := by
  apply BitVec.eq_of_toNat_eq
  rw [BitVec.natCast_eq_ofNat, BitVec.toNat_ofNat]
  simp only [lineWord, append_toNat, wordNumber]
  omega

/-- The contribution is the sum of the weighted words, taken modulo 2^32 by the cast. -/
theorem contribution_eq_sum (i : Nat) (d : LineData) :
    contribution i d = ((∑ k : Fin 16, (16 * i + k.1 + 1) * wordNumber d k : Nat) : BitVec 32) := by
  rw [contribution, foldl_add_eq_sum, Nat.cast_sum, Fin.sum_univ_def]
  refine congrArg List.sum (List.map_congr_left fun k _ => ?_)
  rw [Nat.cast_mul, lineWord_eq_wordNumber, mul_comm, BitVec.natCast_eq_ofNat 32 (16 * i + k.1 + 1)]

theorem signature_eq_sum (a : Assembly) : a.signature = ∑ i : Fin 8, (a.lines[i.1]).getD 0 := by
  have hlines : a.lines.toList = (List.finRange 8).map fun i => a.lines[i.1] :=
    List.ext_getElem (by simp) fun i h h' => by simp
  rw [Assembly.signature, foldl_add_eq_sum, hlines, List.map_map, Fin.sum_univ_def]
  rfl

/-- The places of the lines gathered one by one. -/
theorem foldl_lineBit_place (c : Nat → Bool) (l : List Nat) (m : LineSet) {j : Nat} (hj : j < 8) :
    (l.foldl (fun m i => if c i then m ||| lineBit i else m) m).getLsbD j
      = (m.getLsbD j || (decide (j ∈ l) && c j)) := by
  induction l generalizing m with
  | nil => simp
  | cons i l ih =>
    rw [List.foldl_cons, ih]
    have hbit : (lineBit i).getLsbD j = decide (i = j) := by rw [BitVec.getLsbD_eq_getElem hj]; exact bit_place i hj
    by_cases hij : i = j
    · subst hij
      cases hc : c i <;> simp [hbit]
    · cases hc : c i <;> simp [hbit, hij, Ne.symm hij]

theorem certain_place (a : Assembly) (i : Fin 8) : a.certain.getLsbD i.1 = (a.lines[i.1]).isSome := by
  have hmem : i.1 ∈ lineIndices := by rw [show lineIndices = List.range 8 from rfl]; exact List.mem_range.mpr i.isLt
  rw [Assembly.certain, foldl_lineBit_place (fun i => (a.lines[i]?).join.isSome) _ _ i.isLt]
  simp [hmem]

/-- Settles O31. -/
theorem lineContribution : Obligations.LineContribution := by
  refine ⟨fun i data => ?_, fun a => ⟨signature_eq_sum a, certain_place a⟩⟩
  rw [contribution_eq_sum, BitVec.natCast_eq_ofNat, BitVec.toNat_ofNat]
  rfl

/-! ### The assembly limit and the silence limit (R28, R38) -/

/-- One stream counts an event, and its source takes the posting of it. -/
theorem countAndPost (n : StreamIx) (c : Cause) {f : Stream → Stream} (s : State) {x : Stream} (hx : f (s.stream n) = x) :
    post (streamSource n) c (s.modStream n f) = { s with
        streams := (post (streamSource n) c (s.modStream n f)).streams
        iar := (post (streamSource n) c (s.modStream n f)).iar }
      ∧ OtherStreams n s (post (streamSource n) c (s.modStream n f))
      ∧ Posted (streamSource n) c s (post (streamSource n) c (s.modStream n f))
      ∧ (post (streamSource n) c (s.modStream n f)).stream n = x :=
  ⟨rfl, fun _ hm => modStream_other s hm f, post_posted (s.modStream n f) (streamSource n) c,
    (modStream_same s n f).trans hx⟩

section
variable {l : List Assembly} {a : Assembly} (hslots : (l.map Assembly.slot).Nodup) (ha : a ∈ l)
include hslots ha

theorem findAssembly_mem : findAssembly a.slot l = some a := by
  cases hfind : findAssembly a.slot l with
  | none => exact absurd (List.mem_map_of_mem ha) (findAssembly_none.mp hfind)
  | some b =>
    obtain ⟨hb, hslot⟩ := findAssembly_slot hfind
    rw [List.inj_on_of_nodup_map hslots hb ha hslot]

theorem freeAssembly_mem : freeAssembly a.slot l = l.erase a := by
  rw [(List.Nodup.of_map _ hslots).erase_eq_filter]
  refine List.filter_congr fun b hb => ?_
  have hinj : b.slot = a.slot ↔ b = a := ⟨fun h => List.inj_on_of_nodup_map hslots hb ha h, fun h => h ▸ rfl⟩
  by_cases h : b = a <;> simp [hinj, h]

end

/-- What ASSEMBLY_ABANDON makes of a stream whose assembly of the slot is at the limit (R28). -/
def Stream.abandoned (slot : Nat) (x : Stream) : Stream :=
  { x with
    assemblies := freeAssembly slot x.assemblies
    counters := { x.counters with abandoned := satInc x.counters.abandoned } }

/-- What SILENCE makes of a stream that has become silent (R38). -/
def Stream.silenced (x : Stream) : Stream :=
  { x with silent := true, counters := { x.counters with silences := satInc x.counters.silences } }

/-- Settles O32. -/
theorem abandonAndSilence : Obligations.AbandonAndSilence := by
  refine fun n s => ⟨fun a hd ha hlimit => ?_, fun hen hnonzero hsilent hbrst hlimit => ?_⟩
  · have hdue : abandonDue s n a = true := decide_eq_true hlimit
    refine ⟨_, ?_, countAndPost n .abandoned (f := Stream.abandoned a.slot) s ?_⟩
    · simp only [exec, execAssemblyAbandon, findAssembly_mem (hd n) ha, hdue, if_true]
      rfl
    · rw [Stream.abandoned, freeAssembly_mem (hd n) ha]
  · have hdue : silenceDue s n = true := by
      have hlimit : decide ((s.stream n).desc.silenceLimit ≤ elapsed s.clock (s.stream n).lastAccepted) = true :=
        decide_eq_true hlimit
      simp [silenceDue, hen, hnonzero, hsilent, hbrst, hlimit]
    refine ⟨_, ?_, countAndPost n .silence (f := Stream.silenced) s rfl⟩
    simp only [exec, execSilence, hdue, if_true]
    rfl

end Sys2Proof.Machine
end

/-! ## The Correlator takes a request that it holds, and ignores records of no active pair -/
section

namespace Sys2Proof.Machine

/-! ### One pair changed more than once -/

theorem modPair_modPair (s : State) (p : PairIx) (f g : Pair → Pair) :
    (s.modPair p f).modPair p g = s.modPair p fun q => g (f q) := by
  simp [State.modPair, vupd]

theorem modPair_congr {s : State} {p : PairIx} {f g : Pair → Pair} (h : f (s.pair p) = g (s.pair p)) :
    s.modPair p f = s.modPair p g := by
  have hplace : f s.pairs[p.1] = g s.pairs[p.1] := h
  simp only [State.modPair, vupd, hplace]

theorem addUntracked_zero (p : PairIx) (s : State) : addUntracked p 0 s = s :=
  modPair_unchanged s p (by simp)

theorem addUntracked_add (p : PairIx) (j k : BitVec 32) (s : State) :
    addUntracked p k (addUntracked p j s) = addUntracked p (j + k) s := by
  simp only [addUntracked, countPair, modPair_modPair, BitVec.add_assoc]

/-! ### The requests that passed unseen (R51) -/

/-- The requests that a record shows to have passed unseen: one for its OVERRUN mark, and its gap. -/
def Record.unseen (r : Record) : BitVec 32 := (if r.overrun then 1 else 0) + r.gap.getD 0

theorem countUnseen_eq (p : PairIx) (r : Record) (s : State) : countUnseen p r s = addUntracked p r.unseen s := by
  have hoverrun : (if r.overrun then addUntracked p 1 s else s) = addUntracked p (if r.overrun then 1 else 0) s := by
    split
    · rfl
    · exact (addUntracked_zero p s).symm
  unfold countUnseen Record.unseen
  simp only [hoverrun]
  cases r.gap with
  | none => simp
  | some g => simp [addUntracked_add]

/-! ### The entry that holds a tag (R52) -/

section
variable {α : Type} {t : α → Prop} [DecidablePred t] (g : α → α)

theorem map_none_holds {l : List α} (h : ∀ x ∈ l, ¬ t x) : (l.map fun x => if t x then g x else x) = l :=
  (List.map_congr_left fun x hx => if_neg (h x hx)).trans (List.map_id l)

theorem map_one_holds {before after : List α} {e : α} (hb : ∀ x ∈ before, ¬ t x) (he : t e) (ha : ∀ x ∈ after, ¬ t x) :
    ((before ++ e :: after).map fun x => if t x then g x else x) = before ++ g e :: after := by
  rw [List.map_append, List.map_cons, map_none_holds g hb, map_none_holds g ha, if_pos he]

end

theorem nodup_around {α : Type} {before after others : List α} {e : α} (h : ((before ++ e :: after) ++ others).Nodup) :
    (∀ x ∈ before, x ≠ e) ∧ (∀ x ∈ after, x ≠ e) ∧ ∀ x ∈ others, x ≠ e := by
  rw [List.append_assoc, List.cons_append, List.nodup_middle, List.nodup_cons] at h
  obtain ⟨hnot, -⟩ := h
  simp only [List.mem_append, not_or] at hnot
  obtain ⟨hb, ha, ho⟩ := hnot
  exact ⟨fun _ hx e => hb (e ▸ hx), fun _ hx e => ha (e ▸ hx), fun _ hx e => ho (e ▸ hx)⟩

/-- The pair of a request that it holds, with the entry of the tag retried. -/
def Pair.retried (r : Record) (q : Pair) : Pair :=
  { q with
    openList := q.openList.map fun e => if e.tag = r.tag then e.retried r.slot else e
    lateList := q.lateList.map fun e => if e.entry.tag = r.tag then { e with entry := e.entry.retried r.slot } else e }

section
variable {q : Pair} (htags : (q.openList.map Entry.tag ++ q.lateList.map fun e => e.entry.tag).Nodup) {r : Record}
include htags

/-- No other entry of the pair has the tag of an open one. -/
theorem retried_open {before after : List Entry} {e : Entry} (hopen : q.openList = before ++ e :: after)
    (he : e.tag = r.tag) : q.retried r = { q with openList := before ++ e.retried r.slot :: after } := by
  rw [hopen, List.map_append, List.map_cons, he] at htags
  obtain ⟨hb, ha, hl⟩ := nodup_around htags
  simp only [List.forall_mem_map] at hb ha hl
  rw [Pair.retried, hopen, map_one_holds _ hb he ha, map_none_holds _ hl]

/-- No other entry of the pair has the tag of a late one. -/
theorem retried_late {before after : List LateEntry} {e : LateEntry} (hlate : q.lateList = before ++ e :: after)
    (he : e.entry.tag = r.tag) :
    q.retried r = { q with lateList := before ++ { e with entry := e.entry.retried r.slot } :: after } := by
  rw [hlate, List.map_append, List.map_cons, he, List.nodup_append_comm] at htags
  obtain ⟨hb, ha, ho⟩ := nodup_around htags
  simp only [List.forall_mem_map] at hb ha ho
  rw [Pair.retried, hlate, map_one_holds _ hb he ha, map_none_holds _ ho]

end

/-! ### A request of an active pair (R37, R47, R52) -/

/-- The pair with its untracked count raised. -/
def Pair.passed (k : BitVec 32) (q : Pair) : Pair :=
  { q with counters := { q.counters with untracked := q.counters.untracked + k } }

theorem handleRequest_held {s : State} {p : PairIx} {r : Record}
    (h : (∃ e ∈ (s.pair p).openList, e.tag = r.tag) ∨ ∃ e ∈ (s.pair p).lateList, e.entry.tag = r.tag) :
    handleRequest p r s = s.modPair p fun q => (q.passed r.unseen).retried r := by
  have hheld : ((s.pair p).openWith r.tag).isSome ∨ ((s.pair p).lateWith r.tag).isSome := by
    simpa [Pair.openWith, Pair.lateWith] using h
  simp only [handleRequest, if_pos hheld, countUnseen_eq]
  exact modPair_modPair s p _ _

theorem handleRequest_draining {s : State} {p : PairIx} {r : Record} (hd : (s.pair p).health = .draining)
    (ho : ∀ e ∈ (s.pair p).openList, e.tag ≠ r.tag) (hl : ∀ e ∈ (s.pair p).lateList, e.entry.tag ≠ r.tag) :
    handleRequest p r s = s.modPair p (Pair.passed (r.unseen + 1)) := by
  have hnone : ¬ (((s.pair p).openWith r.tag).isSome ∨ ((s.pair p).lateWith r.tag).isSome) := by
    simpa [Pair.openWith, Pair.lateWith] using ⟨ho, hl⟩
  simp only [handleRequest, if_neg hnone, if_pos hd, countUnseen_eq, addUntracked_add]
  rfl

theorem handleRecord_request {s : State} {p : PairIx} {r : Record} (hrole : (s.stream r.stream).desc.role = .request)
    (hkind : r.kind = .work) (hp : s.pairOf r.stream = some p) (ha : (s.pair p).health.active = true) :
    handleRecord r s = handleRequest p r s := by
  simp only [handleRecord, hrole, hkind, hp, ha, if_true]

/-- A record that its pair does not take, or that has no pair, changes nothing (R50). -/
theorem handleRecord_ignored {s : State} {r : Record}
    (hfits : (s.stream r.stream).desc.role = .request ∧ r.kind = .work
      ∨ (s.stream r.stream).desc.role = .completion ∧ r.kind ≠ .pulse)
    (hp : ∀ p, s.pairOf r.stream = some p → (s.pair p).health = .disabled) : handleRecord r s = s := by
  have hignored (f : PairIx → State) :
      (match s.pairOf r.stream with | none => s | some p => if (s.pair p).health.active then f p else s) = s := by
    cases hpair : s.pairOf r.stream with
    | none => rfl
    | some p => simp [hp p hpair, Health.active]
  rcases hfits with ⟨hrole, hkind⟩ | ⟨hrole, -⟩
  · simp only [handleRecord, hrole, hkind]
    exact hignored _
  · simp only [handleRecord, hrole]
    exact hignored _

/-- A record taken whose handling leaves a settled PRB settled. -/
theorem exec_corTakeRecord {s t : State} {r : Record} {rest : List Record} (hq : s.commitQueue = r :: rest)
    (h : handleRecord r { s with commitQueue := rest } = t) (hs : prbTake t = t) : exec .corTakeRecord s = .next t := by
  simp only [exec, execCorTakeRecord, hq, h, hs]

/-- A request whose handling comes to one change of its pair, with the PRB settled. -/
theorem takesRequest {s : State} {p : PairIx} {r : Record} {rest : List Record} {f : Pair → Pair} {q : Pair}
    (hhead : HeadRecord s p r rest) (hs : prbSettled s) (hrole : (s.stream r.stream).desc.role = .request)
    (hkind : r.kind = .work)
    (h : handleRequest p r { s with commitQueue := rest } = State.modPair p f { s with commitQueue := rest })
    (hf : f (s.pair p) = q) :
    ∃ t, exec .corTakeRecord s = .next t ∧ t = { s with commitQueue := rest, pairs := t.pairs } ∧ OtherPairs p s t
      ∧ t.pair p = q := by
  obtain ⟨hq, hp, ha⟩ := hhead
  exact ⟨State.modPair p f { s with commitQueue := rest },
    exec_corTakeRecord hq ((handleRecord_request (s := { s with commitQueue := rest }) hrole hkind hp ha).trans h)
      (prbTake_kept hs rfl rfl), rfl,
    fun m hm => modPair_other _ hm f, (modPair_same _ p f).trans hf⟩

/-- Settles O36. -/
theorem corTakesARetry : Obligations.CorTakesARetry := by
  constructor
  · intro p r rest s hhead hs htags hrole hkind q unseen untracked
    have hunseen : unseen = r.unseen := by
      show _ + _ = _ + _
      cases r.gap <;> rfl
    refine ⟨fun before e after hopen he => ?_, fun before e after hlate he => ?_, fun hd ho hl => ?_⟩
    · refine takesRequest hhead hs hrole hkind (handleRequest_held (.inl ⟨e, ?_, he⟩)) ?_
      · exact hopen ▸ List.mem_append_right _ List.mem_cons_self
      · rw [hunseen]
        exact retried_open (q := q.passed r.unseen) (htags p) hopen he
    · refine takesRequest hhead hs hrole hkind (handleRequest_held (.inr ⟨e, ?_, he⟩)) ?_
      · exact hlate ▸ List.mem_append_right _ List.mem_cons_self
      · rw [hunseen]
        exact retried_late (q := q.passed r.unseen) (htags p) hlate he
    · refine takesRequest hhead hs hrole hkind (handleRequest_draining hd ho hl) ?_
      rw [hunseen]
      rfl
  · intro r rest s hq hs hfits hp
    exact exec_corTakeRecord hq (handleRecord_ignored hfits hp) (prbTake_kept hs rfl rfl)

end Sys2Proof.Machine
end

/-! ## A stream is described -/
section

namespace Sys2Proof.Machine

/-! ### The codes of SET_STREAM's structural fields (Table 3.1) -/

/-- The role of a code, where the code has one. -/
def roleAt : Nat → Role
  | 0 => .request
  | 1 => .completion
  | _ => .pulse

/-- The slot size of a code, where the code has one. -/
def slotSizeAt : Nat → SlotSize
  | 0 => .bytes64
  | 1 => .bytes128
  | 2 => .bytes256
  | _ => .bytes512

theorem roleOf_eq_some {b : Byte} {r : Role} : roleOf b = some r ↔ b.toNat ≤ 2 ∧ roleAt b.toNat = r := by
  simp only [roleOf, ← BitVec.toNat_inj]
  rcases b.toNat with _ | _ | _ | k <;> simp [roleAt]

theorem slotSizeOf_eq_some {b : Byte} {z : SlotSize} : slotSizeOf b = some z ↔ b.toNat ≤ 3 ∧ slotSizeAt b.toNat = z := by
  simp only [slotSizeOf, ← BitVec.toNat_inj]
  rcases b.toNat with _ | _ | _ | _ | k <;> simp [slotSizeAt]

theorem commitModeOf_eq_some {b : Byte} {m : CommitMode} :
    commitModeOf b = some m ↔ b.toNat ≤ 1 ∧ (if b.toNat = 0 then .header else .tail) = m := by
  simp only [commitModeOf, ← BitVec.toNat_inj]
  rcases b.toNat with _ | _ | k <;> simp

theorem lapPolarityOf_eq_some {b : Byte} {m : LapPolarity} :
    lapPolarityOf b = some m ↔ b.toNat ≤ 1 ∧ (if b.toNat = 0 then .normal else .inverted) = m := by
  simp only [lapPolarityOf, ← BitVec.toNat_inj]
  rcases b.toNat with _ | _ | k <;> simp

theorem flagOf_eq_some {b : Byte} {f : Bool} : flagOf b = some f ↔ b.toNat ≤ 1 ∧ decide (b.toNat = 1) = f := by
  simp only [flagOf, ← BitVec.toNat_inj]
  rcases b.toNat with _ | _ | k <;> simp

theorem slotSizeAt_bytes {k : Nat} (h : k ≤ 3) : (slotSizeAt k).bytes = 64 * 2 ^ k := by
  interval_cases k <;> rfl

theorem slotCountOk_iff {n : Nat} : slotCountOk n = true ↔ ∃ k, 1 ≤ k ∧ k ≤ 12 ∧ n = 2 ^ k := by
  have hpowers : [2, 4, 8, 16, 32, 64, 128, 256, 512, 1024, 2048, 4096] = (List.range' 1 12).map (2 ^ ·) := by decide
  rw [slotCountOk, hpowers, List.contains_iff_mem, List.mem_map]
  refine exists_congr fun k => ?_
  rw [List.mem_range'_1]
  omega

/-- The third check of SET_STREAM (R17). -/
def structuralFits (o : SetStreamOps) : Prop :=
  o.role.toNat ≤ 2 ∧ o.slotSize.toNat ≤ 3 ∧ o.commitMode.toNat ≤ 1
    ∧ o.lapPolarity.toNat ≤ 1 ∧ o.fence.toNat ≤ 1 ∧ o.base.toNat % 4096 = 0
    ∧ (∃ k, 1 ≤ k ∧ k ≤ 12 ∧ o.slotCount.toNat = 2 ^ k)
    ∧ o.base.toNat + o.slotCount.toNat * (64 * 2 ^ o.slotSize.toNat) ≤ 2 ^ 36

/-- The descriptor that the structural fields make, its tuning fields not yet written. -/
def describedBy (o : SetStreamOps) : StreamDesc :=
  { StreamDesc.default with
    role := roleAt o.role.toNat, base := o.base.toNat, slotSize := slotSizeAt o.slotSize.toNat
    slotCount := o.slotCount.toNat, marker := o.marker
    commitMode := if o.commitMode.toNat = 0 then .header else .tail
    lapPolarity := if o.lapPolarity.toNat = 0 then .normal else .inverted
    fence := decide (o.fence.toNat = 1) }

theorem structural?_eq_some {o : SetStreamOps} {d : StreamDesc} :
    o.structural? = some d ↔ structuralFits o ∧ describedBy o = d := by
  simp only [SetStreamOps.structural?, Option.bind_eq_bind, Option.bind_eq_some_iff, roleOf_eq_some, slotSizeOf_eq_some,
    commitModeOf_eq_some, lapPolarityOf_eq_some, flagOf_eq_some, Option.ite_none_right_eq_some, Option.some.injEq,
    slotCountOk_iff, structuralFits]
  constructor
  · rintro ⟨_, ⟨hrole, rfl⟩, _, ⟨hsize, rfl⟩, _, ⟨hmode, rfl⟩, _, ⟨hpolarity, rfl⟩, _, ⟨hfence, rfl⟩,
      ⟨hbase, hcount, hend⟩, rfl⟩
    rw [slotSizeAt_bytes hsize] at hend
    exact ⟨⟨hrole, hsize, hmode, hpolarity, hfence, hbase, hcount, hend⟩, rfl⟩
  · rintro ⟨⟨hrole, hsize, hmode, hpolarity, hfence, hbase, hcount, hend⟩, rfl⟩
    rw [← slotSizeAt_bytes hsize] at hend
    exact ⟨_, ⟨hrole, rfl⟩, _, ⟨hsize, rfl⟩, _, ⟨hmode, rfl⟩, _, ⟨hpolarity, rfl⟩, _, ⟨hfence, rfl⟩,
      ⟨hbase, hcount, hend⟩, rfl⟩

/-! ### SET_STREAM (R17) -/

theorem streamOf_none {k : Nat} (h : k = 0 ∨ 16 < k) : streamOf k = none := by
  rw [streamOf, dif_neg (by omega)]

theorem pairOf_isSome {s : State} {n : StreamIx} : (s.pairOf n).isSome
    ↔ ∃ p : PairIx, (s.pair p).desc.requestStream = some n ∨ (s.pair p).desc.completionStream = some n := by
  rw [← not_iff_not, Option.not_isSome_iff_eq_none, pairOf_none]
  simp only [not_exists, not_or, ne_eq]

/-- The descriptor that SET_STREAM writes. -/
theorem tuned_described (o : SetStreamOps) : o.tuned (describedBy o) =
    { describedBy o with
      reorderSpan := min (max o.reorderSpan.toNat 1) 4, silenceLimit := min o.silenceLimit.toNat 16777215
      assemblyLimit := min (max o.assemblyLimit.toNat 10) 65535
      minInterval := min o.minInterval.toNat 16777215
      maxInterval := max (min (max o.maxInterval.toNat 1) 16777215) (min o.minInterval.toNat 16777215)
      missLimit := min (max o.missLimit.toNat 1) 15 } := by
  simp only [SetStreamOps.tuned, clampTo, Nat.max_zero]

section
variable {o : SetStreamOps} {s : State} {n : StreamIx}

theorem takenSetStream_numberless (h : o.stream.toNat = 0 ∨ 16 < o.stream.toNat) :
    takenSetStream o s = (s, Reply.plain .range) := by
  simp only [takenSetStream, streamOf_none h, refuse]

variable (hn : o.stream.toNat = n.1 + 1)
include hn

theorem takenSetStream_enabled (hen : (s.stream n).enabled = true) : takenSetStream o s = (s, Reply.plain .busy) := by
  simp only [takenSetStream, streamOf_eq.mpr hn, hen, if_true, refuse]

variable (hen : (s.stream n).enabled = false)
include hen

theorem takenSetStream_unstructured (hd : ¬ structuralFits o) : takenSetStream o s = (s, Reply.plain .range) := by
  have hnone : o.structural? = none := by
    cases h : o.structural? with
    | none => rfl
    | some d => exact absurd (structural?_eq_some.mp h).1 hd
  simp [takenSetStream, streamOf_eq.mpr hn, hen, hnone, refuse]

theorem takenSetStream_roleNamed (hd : structuralFits o) (hrole : roleAt o.role.toNat ≠ (s.stream n).desc.role)
    (hnamed : (s.pairOf n).isSome) : takenSetStream o s = (s, Reply.plain .range) := by
  have hroles : (describedBy o).role ≠ (s.stream n).desc.role ∧ (s.pairOf n).isSome := ⟨hrole, hnamed⟩
  simp only [takenSetStream, streamOf_eq.mpr hn, hen, structural?_eq_some.mpr ⟨hd, rfl⟩, if_pos hroles, refuse,
    Bool.false_eq_true, if_false]

theorem takenSetStream_taken (hd : structuralFits o)
    (hrole : roleAt o.role.toNat = (s.stream n).desc.role ∨ ¬ (s.pairOf n).isSome) :
    takenSetStream o s = (s.modStream n (fun x => { x with desc := o.tuned (describedBy o) }),
      Reply.plain (takenStatus (o.clamped (o.tuned (describedBy o))))) := by
  have hroles : ¬ ((describedBy o).role ≠ (s.stream n).desc.role ∧ (s.pairOf n).isSome) := fun h =>
    hrole.elim h.1 (absurd h.2)
  simp only [takenSetStream, streamOf_eq.mpr hn, hen, structural?_eq_some.mpr ⟨hd, rfl⟩, if_neg hroles,
    Bool.false_eq_true, if_false]

end

theorem answers_setStream {l : Manager} {o : SetStreamOps} {s t : State} {st : Status}
    (h : takenSetStream o s = (t, Reply.plain st)) : Answers l (.setStream l o) s t st := by
  rw [Answers, ← Reply.plain, ← h]
  rfl

/-- Settles O51. -/
theorem setStreamIsTaken : Obligations.SetStreamIsTaken := by
  intro l o s c
  refine ⟨fun h => answers_setStream (takenSetStream_numberless h), ?_⟩
  intro n hn x structural role named d
  have hdesc : o.tuned (describedBy o) = d := tuned_described o
  have hstatus : takenStatus (o.clamped d) = if d.reorderSpan = o.reorderSpan.toNat ∧ d.silenceLimit = o.silenceLimit.toNat
      ∧ d.assemblyLimit = o.assemblyLimit.toNat ∧ d.minInterval = o.minInterval.toNat
      ∧ d.maxInterval = o.maxInterval.toNat ∧ d.missLimit = o.missLimit.toNat then .ok else .clamped := by
    simp only [takenStatus, SetStreamOps.clamped, decide_eq_true_eq, ite_not]
  refine ⟨fun hen => answers_setStream (takenSetStream_enabled hn hen),
    fun hen hd => answers_setStream (takenSetStream_unstructured hn hen hd),
    fun hen hd hr hnamed => answers_setStream (takenSetStream_roleNamed hn hen hd hr (pairOf_isSome.mpr hnamed)),
    fun hen hd hr => ?_⟩
  have htaken := takenSetStream_taken hn hen hd (hr.imp_right (mt pairOf_isSome.mp))
  rw [hdesc, hstatus] at htaken
  exact ⟨_, answers_setStream htaken, rfl, fun m hm => modStream_other s hm _, modStream_same s n _⟩

end Sys2Proof.Machine
end

/-! ## Streams enter and leave service -/
section

namespace Sys2Proof.Machine

/-! ### Windows (R6, R18) -/

theorem slotSize_bytes_pos (z : SlotSize) : 0 < z.bytes := by cases z <;> decide

/-- The window of a descriptor in range holds an address. -/
theorem window_nonempty {d : StreamDesc} (h : d.inRange) : d.base < d.base + d.slotCount * d.slotSize.bytes := by
  obtain ⟨-, hcount, -⟩ := h
  obtain ⟨k, -, -, hk⟩ := slotCountOk_iff.mp hcount
  have hpos : 0 < d.slotCount := hk ▸ Nat.two_pow_pos k
  exact Nat.lt_add_of_pos_right (Nat.mul_pos hpos (slotSize_bytes_pos _))

theorem meets_iff {v w : Window} (hv : v.base < v.limit) (hw : w.base < w.limit) :
    v.meets w = true ↔ ∃ a, (w.base ≤ a ∧ a < w.limit) ∧ v.base ≤ a ∧ a < v.limit := by
  rw [Window.meets, decide_eq_true_eq]
  constructor
  · rintro ⟨h, k⟩
    exact ⟨max v.base w.base, by omega, by omega⟩
  · rintro ⟨a, h, k⟩
    omega

/-- The fourth check of ENABLE_STREAM: an address in the stream's window and in that of an enabled stream (R18). -/
theorem overlapsEnabled_iff {s : State} (hs : RangesHold s) (n : StreamIx) :
    overlapsEnabled n s = true ↔ ∃ (m : StreamIx) (a : Nat), (s.stream m).enabled = true
      ∧ ((s.stream n).desc.base ≤ a
          ∧ a < (s.stream n).desc.base + (s.stream n).desc.slotCount * (s.stream n).desc.slotSize.bytes)
      ∧ (s.stream m).desc.base ≤ a
          ∧ a < (s.stream m).desc.base + (s.stream m).desc.slotCount * (s.stream m).desc.slotSize.bytes := by
  obtain ⟨hstreams, -⟩ := hs
  have hwindow (m : StreamIx) : (windowOf m (s.stream m).desc).base < (windowOf m (s.stream m).desc).limit :=
    window_nonempty (hstreams m).1
  rw [overlapsEnabled, List.any_eq_true]
  constructor
  · rintro ⟨w, hw, hmeets⟩
    obtain ⟨m, hm, rfl⟩ := mem_enabledWindows.mp hw
    obtain ⟨a, ha⟩ := (meets_iff (hwindow m) (hwindow n)).mp hmeets
    exact ⟨m, a, hm, ha⟩
  · rintro ⟨m, a, hm, ha⟩
    exact ⟨_, mem_enabledWindows.mpr ⟨m, hm, rfl⟩, (meets_iff (hwindow m) (hwindow n)).mpr ⟨a, ha⟩⟩

theorem rebuildLookup_windows (s : State) (w : Window) : w ∈ (rebuildLookup s).tap.lookup
    ↔ ∃ m : StreamIx, (s.stream m).enabled = true
      ∧ w = { stream := m, base := (s.stream m).desc.base, slotBytes := (s.stream m).desc.slotSize.bytes
              slotCount := (s.stream m).desc.slotCount } :=
  mem_enabledWindows.trans (exists_congr fun _ => and_congr_right fun _ => eq_comm)

/-! ### Echo entries withdrawn (R126) -/

/-- The entries of a list gone from the echo list and counted withdrawn. -/
def entriesWithdrawn (l : List EchoEntry) (s : State) : State :=
  { s with echo := { s.echo with
      entries := s.echo.entries.diff l
      counters := { s.echo.counters with withdrawn := satAdd s.echo.counters.withdrawn l.length } } }

theorem satAdd_zero (c : BitVec 16) : satAdd c 0 = c :=
  BitVec.eq_of_toNat_eq (by rw [satAdd_toNat]; omega)

theorem satAdd_satInc (c : BitVec 16) (n : Nat) : satAdd (satInc c) n = satAdd c (n + 1) :=
  BitVec.eq_of_toNat_eq (by rw [satAdd_toNat, satAdd_toNat, satInc_toNat]; omega)

/-- A WATCHING entry is not in the probe queue and has no line in hand. -/
theorem retireEntry_watching {e : EchoEntry} (h : e.status = .watching) (s : State) :
    retireEntry e s = s.modEcho fun x => { x with entries := x.entries.erase e } := by
  simp [retireEntry, h]

theorem withdraw_watching {l : List EchoEntry} (h : ∀ e ∈ l, e.status = .watching) (s : State) :
    l.foldl (fun s e => countEcho (fun c => { c with withdrawn := satInc c.withdrawn }) (retireEntry e s)) s
      = entriesWithdrawn l s := by
  induction l generalizing s with
  | nil => simp [entriesWithdrawn, satAdd_zero]
  | cons e l ih =>
    obtain ⟨he, hl⟩ := List.forall_mem_cons.mp h
    rw [List.foldl_cons, ih hl, retireEntry_watching he, entriesWithdrawn, entriesWithdrawn, List.diff_cons,
      List.length_cons, ← satAdd_satInc]
    rfl

theorem diff_filter {α : Type} [DecidableEq α] (t : α → Bool) (l : List α) : l.diff (l.filter t) = l.filter fun x => !t x := by
  induction l with
  | nil => rfl
  | cons x l ih =>
    cases hx : t x with
    | true => rw [List.filter_cons_of_pos hx, List.filter_cons_of_neg (by simp [hx]), List.diff_cons, List.erase_cons_head, ih]
    | false =>
      have hnot : x ∉ l.filter t := fun h => by simp [hx] at h
      rw [List.filter_cons_of_neg (by simp [hx]), List.filter_cons_of_pos (by simp [hx]), List.cons_diff_of_not_mem hnot, ih]

/-- The PRB finds no more to take in a shorter echo list. -/
theorem prbSettled_sublist {s t : State} (hs : prbSettled s) (hprb : t.echo.prb = s.echo.prb)
    (hbrst : t.tap.brstAsserted = s.tap.brstAsserted) (hsingle : t.echo.single = s.echo.single)
    (hqueue : t.echo.probeQueue = s.echo.probeQueue) (hentries : ∀ e ∈ t.echo.entries, e ∈ s.echo.entries) :
    prbSettled t := by
  unfold prbSettled at hs ⊢
  rw [hprb, hbrst, hsingle, hqueue]
  refine hs.imp_right (Or.imp_right fun ⟨hidle, hcurrent, hempty⟩ => ⟨hidle, ?_, hempty⟩)
  rw [currentEntry, List.find?_eq_none] at hcurrent ⊢
  exact fun e he => hcurrent e (hentries e he)

/-! ### ENABLE_STREAM and DISABLE_STREAM (R18, R19) -/

section
variable {b : Byte} {s : State}

theorem takenEnableStream_numberless (h : b.toNat = 0 ∨ 16 < b.toNat) :
    takenEnableStream b s = (s, Reply.plain .range) := by
  simp only [takenEnableStream, streamOf_none h, refuse]

theorem takenDisableStream_numberless (h : b.toNat = 0 ∨ 16 < b.toNat) :
    takenDisableStream b s = (s, Reply.plain .range) := by
  simp only [takenDisableStream, streamOf_none h, refuse]

variable {n : StreamIx} (hn : b.toNat = n.1 + 1)
include hn

theorem takenEnableStream_enabled (hen : (s.stream n).enabled = true) :
    takenEnableStream b s = (s, Reply.plain .busy) := by
  simp only [takenEnableStream, streamOf_eq.mpr hn, hen, if_true, refuse]

theorem takenEnableStream_overlap (hen : (s.stream n).enabled = false) (ho : overlapsEnabled n s = true) :
    takenEnableStream b s = (s, Reply.plain .overlap) := by
  simp only [takenEnableStream, streamOf_eq.mpr hn, hen, ho, if_true, refuse, Bool.false_eq_true, if_false]

theorem takenEnableStream_starts (hen : (s.stream n).enabled = false) (ho : overlapsEnabled n s = false) :
    takenEnableStream b s
      = (rebuildLookup (s.modStream n (Stream.started s.clock s.tap.brstAsserted)), Reply.plain .ok) := by
  simp only [takenEnableStream, streamOf_eq.mpr hn, hen, ho, done, Bool.false_eq_true, if_false]

theorem takenDisableStream_disabled (hen : (s.stream n).enabled = false) :
    takenDisableStream b s = (s, Reply.plain .ok) := by
  simp only [takenDisableStream, streamOf_eq.mpr hn, hen, done, Bool.false_eq_true, if_false]

/-- A stream out of service, its records and its trigger gone; its echo entries are still to be withdrawn. -/
def streamStopped (n : StreamIx) (s : State) : State :=
  leaveTrigger (.stream n) { rebuildLookup (s.modStream n Stream.stopped) with
    commitQueue := s.commitQueue.filter fun r => decide (r.stream ≠ n) }

/-- The state in which DISABLE_STREAM leaves an enabled stream. -/
def outOfService (n : StreamIx) (s : State) : State :=
  entriesWithdrawn (s.echo.entries.filter fun e => decide (e.stream = n)) (streamStopped n s)

theorem takenDisableStream_stops (hen : (s.stream n).enabled = true)
    (hwatching : ∀ e ∈ s.echo.entries, e.stream = n → e.status = .watching) (hs : prbSettled s) :
    takenDisableStream b s = (outOfService n s, Reply.plain .ok) := by
  have hwithdrawn : withdrawStream n (streamStopped n s) = outOfService n s :=
    withdraw_watching (fun e he => by
      obtain ⟨hmem, hstream⟩ := List.mem_filter.mp he
      exact hwatching e hmem (of_decide_eq_true hstream)) _
  have hsettled : prbTake (outOfService n s) = outOfService n s :=
    prbTake_settled _ (prbSettled_sublist hs rfl rfl rfl rfl fun e he => (List.diff_sublist ..).subset he)
  have htaken : takenDisableStream b s = done (prbTake (withdrawStream n (streamStopped n s))) := by
    simp only [takenDisableStream, streamOf_eq.mpr hn, hen, if_true]
    rfl
  rw [htaken, hwithdrawn, hsettled, done]

end

/-- Settles O52. -/
theorem streamsEnterAndLeaveService : Obligations.StreamsEnterAndLeaveService := by
  intro l b s hs windows
  have henable {t : State} {st : Status} (h : takenEnableStream b s = (t, Reply.plain st)) :
      Answers l (.enableStream l b) s t st := by rw [Answers, ← Reply.plain, ← h]; rfl
  have hdisable {t : State} {st : Status} (h : takenDisableStream b s = (t, Reply.plain st)) :
      Answers l (.disableStream l b) s t st := by rw [Answers, ← Reply.plain, ← h]; rfl
  refine ⟨fun h => ⟨henable (takenEnableStream_numberless h), hdisable (takenDisableStream_numberless h)⟩, ?_⟩
  intro n hn x inWindow overlaps
  have hoverlaps : overlapsEnabled n s = true ↔ overlaps := overlapsEnabled_iff hs n
  refine ⟨fun hen => henable (takenEnableStream_enabled hn hen),
    fun hen ho => henable (takenEnableStream_overlap hn hen (hoverlaps.mpr ho)), fun hen ho => ?_,
    fun hen => hdisable (takenDisableStream_disabled hn hen), fun hen hwatching hprb => ?_⟩
  · have hfree : overlapsEnabled n s = false := Bool.eq_false_iff.mpr (mt hoverlaps.mp ho)
    refine ⟨_, henable (takenEnableStream_starts hn hen hfree), rfl, rebuildLookup_windows _,
      fun m hm => modStream_other s hm _, (modStream_same s n _).trans ?_⟩
    simp only [Stream.started, ne_eq, ite_not]
    rfl
  · refine ⟨outOfService n s, hdisable (takenDisableStream_stops hn hen hwatching hprb), ?_,
      rebuildLookup_windows (s.modStream n Stream.stopped), fun m hm => modStream_other s hm _, modStream_same s n _,
      ?_, ?_, fun m hm => ?_⟩
    · have hentries : s.echo.entries.diff (s.echo.entries.filter fun e => decide (e.stream = n))
          = s.echo.entries.filter fun e => decide (e.stream ≠ n) := by simp only [diff_filter, decide_not]
      rw [← hentries]
      rfl
    · rw [List.countP_eq_length_filter]
      exact satAdd_toNat _ _
    · exact (TriggerSet.has_remove (.stream n) ..).trans (by rw [decide_eq_true rfl, Bool.not_true, Bool.and_false])
    · exact (TriggerSet.has_remove ..).trans (by rw [decide_eq_false hm, Bool.not_false, Bool.and_true]; rfl)

end Sys2Proof.Machine
end

/-! ## The entries of a pair: what its lists, its quota and its counters keep -/
section

namespace Sys2Proof.Machine

/-! ### The entries of one pair -/

/-- The tags of a pair's entries, the open list's first. -/
def Pair.tags (q : Pair) : List (BitVec 32) := q.openList.map Entry.tag ++ q.lateList.map fun e => e.entry.tag

theorem tags_length (q : Pair) : q.tags.length = q.entryCount := by simp [Pair.tags, Pair.entryCount]

theorem tags_eq_nil {q : Pair} : q.tags = [] ↔ q.openList = [] ∧ q.lateList = [] := by simp [Pair.tags]

/-- A DISABLED pair has no entry (R49). -/
def Pair.Vacant (q : Pair) : Prop := q.health = .disabled → q.tags = []

/-- A DRAINING pair has an entry (R47). -/
def Pair.Occupied (q : Pair) : Prop := q.health = .draining → q.tags ≠ []

/-- A pair has no more entries than its quota (R53). -/
def Pair.WithinQuota (q : Pair) : Prop := q.tags.length ≤ q.desc.quota

theorem entriesHold_iff {s : State} :
    EntriesHold s ↔ ∀ p, (s.pair p).Vacant ∧ (s.pair p).Occupied ∧ (s.pair p).WithinQuota := by
  simp only [EntriesHold, Pair.Vacant, Pair.Occupied, Pair.WithinQuota, ← tags_length, List.length_pos_iff, tags_eq_nil]

/-- The entries that the counters of a pair have yet to account for (R66), modulo 2^32. -/
def PairCounters.outstanding (c : PairCounters) : BitVec 32 := c.tracked - (c.completed + c.late + c.lost + c.discarded)

theorem balanced_iff {q : Pair} : q.balanced ↔ q.counters.outstanding = BitVec.ofNat 32 q.tags.length := by
  rw [Pair.balanced, PairCounters.outstanding, tags_length, Pair.entryCount, BitVec.ofNat_add, sub_eq_iff_eq_add', add_assoc]

theorem countersBalance_iff {s : State} : CountersBalance s ↔ ∀ p, (s.pair p).balanced ∧ (s.pair p).Vacant := by
  simp only [CountersBalance, Pair.Vacant, tags_eq_nil]

/-- What an event leaves of the entries of the pair `q` in `r`, whether or not an entry is left. -/
structure Pair.EntriesKept (q r : Pair) : Prop where
  vacant : q.Vacant → r.Vacant
  quota : q.Vacant → q.WithinQuota → r.WithinQuota
  tags : q.tags.Nodup → r.tags.Nodup
  balance : q.Vacant → q.balanced → r.balanced

/-- What every event leaves of the entries of the pair `q` in `r`. -/
structure Pair.TableKept (q r : Pair) : Prop extends Pair.EntriesKept q r where
  occupied : q.Occupied → r.Occupied

theorem Pair.EntriesKept.trans {q r u : Pair} (h : q.EntriesKept r) (k : r.EntriesKept u) : q.EntriesKept u where
  vacant := k.vacant ∘ h.vacant
  quota hv := k.quota (h.vacant hv) ∘ h.quota hv
  tags := k.tags ∘ h.tags
  balance hv := k.balance (h.vacant hv) ∘ h.balance hv

theorem Pair.TableKept.trans {q r u : Pair} (h : q.TableKept r) (k : r.TableKept u) : q.TableKept u where
  toEntriesKept := h.toEntriesKept.trans k.toEntriesKept
  occupied := k.occupied ∘ h.occupied

theorem Pair.TableKept.refl (q : Pair) : q.TableKept q := ⟨⟨id, fun _ => id, id, fun _ => id⟩, id⟩

/-- Of the entries some are gone, each accounted for by a counter. -/
theorem Pair.EntriesKept.freed {q r : Pair} (n : Nat) (hquota : r.desc.quota = q.desc.quota)
    (hhealth : r.health = q.health ∨ r.health ≠ .disabled) (htags : r.tags.Subperm q.tags)
    (hcount : q.tags.length = r.tags.length + n)
    (hout : r.counters.outstanding = q.counters.outstanding - BitVec.ofNat 32 n) : q.EntriesKept r where
  vacant hv hr := by
    rcases hhealth with h | h
    · have hnil := hv (h ▸ hr)
      rw [hnil] at htags
      exact List.subperm_nil.mp htags
    · exact absurd hr h
  quota _ hq := by
    unfold Pair.WithinQuota at hq ⊢
    rw [hquota]
    omega
  tags hd := by
    obtain ⟨l, hperm, hsub⟩ := htags
    exact hperm.nodup_iff.mp (hd.sublist hsub)
  balance _ hb := by
    rw [balanced_iff] at hb ⊢
    rw [hout, hb, hcount, BitVec.ofNat_add, add_sub_cancel_right]

/-- The entries stay, perhaps in other places, and the counters that account for them. -/
theorem Pair.TableKept.moved {q r : Pair} (hquota : r.desc.quota = q.desc.quota)
    (hhealth : r.health = q.health ∨ r.health.enabled = true) (htags : r.tags.Perm q.tags)
    (hout : r.counters.outstanding = q.counters.outstanding) : q.TableKept r where
  toEntriesKept := .freed 0 hquota (hhealth.imp_right fun h k => by rw [k] at h; cases h) htags.subperm
    htags.length_eq.symm (by rw [hout]; simp)
  occupied ho hr hnil := by
    rcases hhealth with h | h
    · exact ho (h ▸ hr) (List.perm_nil.mp (hnil ▸ htags.symm))
    · rw [hr] at h; cases h

/-- A pair with the same entries. -/
theorem Pair.TableKept.same {q r : Pair} (hquota : r.desc.quota = q.desc.quota)
    (hhealth : r.health = q.health ∨ r.health.enabled = true) (hopen : r.openList = q.openList)
    (hlate : r.lateList = q.lateList) (hout : r.counters.outstanding = q.counters.outstanding) : q.TableKept r :=
  .moved hquota hhealth (by rw [Pair.tags, Pair.tags, hopen, hlate]) hout

theorem SameButWindow.tableKept {q r : Pair} (h : SameButWindow q r) : q.TableKept r := by
  obtain ⟨h, -, -⟩ := h
  rw [h]
  exact .same rfl (.inl rfl) rfl rfl rfl

end Sys2Proof.Machine
end

/-! ## What the shared operations leave of the Pairing Table -/
section

namespace Sys2Proof.Machine

/-! ### The entries of every pair -/

/-- What every event leaves of the Pairing Table. -/
def TableKept (s t : State) : Prop := ∀ p, (s.pair p).TableKept (t.pair p)

namespace TableKept

theorem refl (s : State) : TableKept s s := fun _ => .refl _

theorem of_pairs {s t : State} (h : t.pairs = s.pairs) : TableKept s t := fun p => by
  rw [show t.pair p = s.pair p by rw [State.pair, State.pair, h]]
  exact .refl _

theorem trans {s t u : State} (h : TableKept s t) (k : TableKept t u) : TableKept s u := fun p => (h p).trans (k p)

/-- The operation done last first, as a meaning writes it. -/
theorem comp {s t u : State} (k : TableKept t u) (h : TableKept s t) : TableKept s u := h.trans k

theorem ite {s t u : State} {c : Prop} [Decidable c] (h : TableKept s t) (k : TableKept s u) :
    TableKept s (if c then t else u) := by
  split
  · exact h
  · exact k

theorem foldl {γ : Type} {f : State → γ → State} (hf : ∀ t a, TableKept t (f t a)) (l : List γ) (s : State) :
    TableKept s (l.foldl f s) :=
  foldl_keeps (P := TableKept s) (fun t a h => h.trans (hf t a)) l (refl s)

theorem atPair {s t : State} {p : PairIx} (ho : OtherPairs p s t) (h : (s.pair p).TableKept (t.pair p)) :
    TableKept s t := fun r => by
  by_cases hr : r = p
  · exact hr ▸ h
  · rw [ho r hr]; exact .refl _

theorem modPair {s : State} {p : PairIx} {f : Pair → Pair} (h : (s.pair p).TableKept (f (s.pair p))) :
    TableKept s (s.modPair p f) :=
  atPair (fun _ hr => modPair_other s hr f) (by rwa [modPair_same])

/-- A change of one pair that leaves its quota, its entries and what is counted of them, and has it enabled if its health
changes. -/
theorem modRest {s : State} {p : PairIx} {f : Pair → Pair} (hquota : (f (s.pair p)).desc.quota = (s.pair p).desc.quota)
    (hhealth : (f (s.pair p)).health = (s.pair p).health ∨ (f (s.pair p)).health.enabled = true)
    (hopen : (f (s.pair p)).openList = (s.pair p).openList) (hlate : (f (s.pair p)).lateList = (s.pair p).lateList)
    (hout : (f (s.pair p)).counters.outstanding = (s.pair p).counters.outstanding) : TableKept s (s.modPair p f) :=
  modPair (.same hquota hhealth hopen hlate hout)

/-- A change of what the HEV keeps of one pair. -/
theorem modHev {s : State} {p : PairIx} {f : Pair → Pair}
    (h : f (s.pair p) = { s.pair p with hev := (f (s.pair p)).hev }) : TableKept s (s.modPair p f) := by
  refine .modPair ?_
  rw [h]
  exact .same rfl (.inl rfl) rfl rfl rfl

/-- The invariants of the Pairing Table read nothing but what is kept. -/
theorem entriesHold {s t : State} (h : TableKept s t) (hs : EntriesHold s) : EntriesHold t := by
  rw [entriesHold_iff] at hs ⊢
  intro p
  obtain ⟨hvacant, hoccupied, hquota⟩ := hs p
  exact ⟨(h p).vacant hvacant, (h p).occupied hoccupied, (h p).quota hvacant hquota⟩

theorem tagsDistinct {s t : State} (h : TableKept s t) (hs : TagsDistinct s) : TagsDistinct t := fun p => (h p).tags (hs p)

theorem countersBalance {s t : State} (h : TableKept s t) (hs : CountersBalance s) : CountersBalance t := by
  rw [countersBalance_iff] at hs ⊢
  intro p
  obtain ⟨hbalanced, hvacant⟩ := hs p
  exact ⟨(h p).balance hvacant hbalanced, (h p).vacant hvacant⟩

end TableKept

theorem FindingOnly.tableKept {p : PairIx} {s t : State} (h : FindingOnly p s t) : TableKept s t :=
  .atPair h.others h.here.tableKept

/-! ### The events of a window and the end of a drain, as changes of their pair (R47, R89, R90) -/

/-- A pair with an event counted in its window, when it is enabled (R89). -/
def Pair.event (f : EvalWindow → EvalWindow) (q : Pair) : Pair := if q.health.enabled then q.modWindow f else q

theorem modPair_if {s : State} {p : PairIx} {c : Pair → Prop} [DecidablePred c] (f : Pair → Pair) :
    (if c (s.pair p) then s.modPair p f else s) = s.modPair p fun q => if c q then f q else q := by
  split
  · next h => exact modPair_congr (by rw [if_pos h])
  · next h => exact (modPair_unchanged s p (by rw [if_neg h])).symm

theorem pairedEvent_eq (p : PairIx) (s : State) : pairedEvent p s = s.modPair p (Pair.event EvalWindow.countPaired) :=
  modPair_if (c := fun q => q.health.enabled = true) _

theorem adverseEvent_eq (p : PairIx) (s : State) : adverseEvent p s = s.modPair p (Pair.event EvalWindow.countAdverse) :=
  modPair_if (c := fun q => q.health.enabled = true) _

theorem event_sameButWindow {f : EvalWindow → EvalWindow} (hf : ∀ w, (f w).held = w.held ∧ (f w).start = w.start)
    (q : Pair) : SameButWindow q (q.event f) := by
  unfold Pair.event
  split
  · exact .modWindow hf q
  · exact .refl q

/-- A DRAINING pair without entries is DISABLED (R47). -/
def Pair.drained (q : Pair) : Pair :=
  if q.health = .draining ∧ q.openList = [] ∧ q.lateList = [] then { q with health := .disabled } else q

theorem settleDraining_eq (p : PairIx) (s : State) : settleDraining p s = s.modPair p Pair.drained :=
  modPair_if (c := fun q => q.health = .draining ∧ q.openList = [] ∧ q.lateList = []) _

/-- The end of a drain makes good what the loss of the last entry breaks. -/
theorem Pair.EntriesKept.drained {q r : Pair} (h : q.EntriesKept r) : q.TableKept r.drained := by
  unfold Pair.drained
  split
  · next he =>
    have hnil : r.tags = [] := tags_eq_nil.mpr he.2
    exact ⟨⟨fun _ _ => hnil, h.quota, h.tags, h.balance⟩, fun _ hr => by cases hr⟩
  · next he => exact ⟨h, fun _ hr hnil => he ⟨hr, tags_eq_nil.mp hnil⟩⟩

theorem settleDraining_tableKept {p : PairIx} {s t : State} (ho : OtherPairs p s t)
    (h : (s.pair p).EntriesKept (t.pair p)) : TableKept s (settleDraining p t) := by
  rw [settleDraining_eq]
  exact .atPair (fun r hr => (modPair_other t hr _).trans (ho r hr)) (by rw [modPair_same]; exact h.drained)

/-! ### The examination of the heads, as a change of their pair (R62, R63) -/

/-- An open entry has reached T. -/
def Pair.expires (now : Clock) (q : Pair) (e : Entry) : Bool := decide (q.timeout ≤ e.age now)

/-- A late entry has reached T. -/
def Pair.loses (now : Clock) (q : Pair) (e : LateEntry) : Bool := decide (q.timeout ≤ e.time now)

/-- A pair with the entries that expire moved to its late list. -/
def Pair.headsExpired (now : Clock) (q : Pair) : Pair :=
  { q with
    openList := q.openList.dropWhile (q.expires now)
    lateList := q.lateList ++ (q.openList.takeWhile (q.expires now)).map fun e => ⟨e, now⟩ }

/-- A pair with the entries that are lost freed and counted. -/
def Pair.headsLost (now : Clock) (q : Pair) : Pair :=
  { q with
    lateList := q.lateList.dropWhile (q.loses now)
    counters := { q.counters with
      lost := q.counters.lost + BitVec.ofNat 32 (q.lateList.takeWhile (q.loses now)).length } }

section
variable {s : State} {p : PairIx}

theorem examineOpen_active (h : (s.pair p).health.active = true) :
    examineOpen p s = ((s.pair p).openList.takeWhile ((s.pair p).expires s.clock)).foldl (expiryFinding p)
      (s.modPair p (Pair.headsExpired s.clock)) := by
  simp only [examineOpen, if_pos h]
  exact congrArg (List.foldl _ · _) (modPair_congr rfl)

theorem examineOpen_inactive (h : (s.pair p).health.active = false) : examineOpen p s = s := by
  simp [examineOpen, h]

theorem examineLate_active (h : (s.pair p).health.active = true) :
    examineLate p s = settleDraining p (((s.pair p).lateList.takeWhile ((s.pair p).loses s.clock)).foldl (lossFinding p)
      (s.modPair p (Pair.headsLost s.clock))) := by
  simp only [examineLate, if_pos h]
  exact congrArg (settleDraining p <| List.foldl _ · _) (modPair_congr rfl)

theorem examineLate_inactive (h : (s.pair p).health.active = false) : examineLate p s = s := by
  simp [examineLate, h]

end

theorem headsExpired_tags (now : Clock) (q : Pair) : (q.headsExpired now).tags.Perm q.tags := by
  have hsplit : q.openList.map Entry.tag = (q.openList.takeWhile (q.expires now)).map Entry.tag
      ++ (q.openList.dropWhile (q.expires now)).map Entry.tag := by
    rw [← List.map_append, List.takeWhile_append_dropWhile]
  have hlate : (q.headsExpired now).tags = (q.openList.dropWhile (q.expires now)).map Entry.tag
      ++ ((q.lateList.map fun e => e.entry.tag) ++ (q.openList.takeWhile (q.expires now)).map Entry.tag) := by
    simp [Pair.tags, Pair.headsExpired]
  rw [hlate, Pair.tags, hsplit, ← List.append_assoc]
  refine List.perm_append_comm.trans ?_
  rw [List.append_assoc]

theorem headsLost_entriesKept (now : Clock) (q : Pair) : q.EntriesKept (q.headsLost now) := by
  refine .freed (q.lateList.takeWhile (q.loses now)).length rfl (.inl rfl)
    (((List.dropWhile_sublist _).map _).append_left _).subperm ?_ ?_
  · have h := congrArg List.length (List.takeWhile_append_dropWhile (p := q.loses now) (l := q.lateList))
    simp only [Pair.tags, Pair.headsLost, List.length_append, List.length_map] at h ⊢
    omega
  · simp only [PairCounters.outstanding, Pair.headsLost]
    ring

section
variable (p : PairIx) (s : State)

theorem examineOpen_tableKept : TableKept s (examineOpen p s) := by
  cases ha : (s.pair p).health.active with
  | true =>
    rw [examineOpen_active ha]
    exact .comp (foldl_finding _ p (expiryFinding_only · p ·) _).tableKept
      (.modPair (.moved rfl (.inl rfl) (headsExpired_tags _ _) rfl))
  | false => rw [examineOpen_inactive ha]; exact .refl s

theorem examineLate_tableKept : TableKept s (examineLate p s) := by
  cases ha : (s.pair p).health.active with
  | true =>
    rw [examineLate_active ha]
    have hfound := foldl_finding (s.modPair p (Pair.headsLost s.clock)) p (lossFinding_only · p ·)
      ((s.pair p).lateList.takeWhile ((s.pair p).loses s.clock))
    refine settleDraining_tableKept (fun r hr => (hfound.others r hr).trans (modPair_other s hr _)) ?_
    have hlost := headsLost_entriesKept s.clock (s.pair p)
    rw [← modPair_same s p (Pair.headsLost s.clock)] at hlost
    exact hlost.trans hfound.here.tableKept.toEntriesKept
  | false => rw [examineLate_inactive ha]; exact .refl s

theorem recomputeT_tableKept : TableKept s (recomputeT p s) :=
  .ite (.refl s) ((examineLate_tableKept p _).comp ((examineOpen_tableKept p _).comp (.modRest rfl (.inl rfl) rfl rfl rfl)))

theorem setFactor_tableKept (f : Nat) : TableKept s (setFactor f s) :=
  .comp (.foldl (fun t r => recomputeT_tableKept r t) allPairs _) (.refl s)

theorem takeSample_tableKept (l : Nat) : TableKept s (takeSample p l s) :=
  (recomputeT_tableKept p _).comp (.modRest rfl (.inl rfl) rfl rfl rfl)

end

end Sys2Proof.Machine
end

/-! ## What the verdict, the echo part and requests leave of the Pairing Table -/
section

namespace Sys2Proof.Machine

/-! ### The Verdict Unit and the Health Evaluator (sections 6 and 8) -/

section
variable (p : PairIx) (m : Trigger) (s : State)

theorem joinInFault_tableKept : TableKept s (joinInFault m s) := .ite (.refl s) (.refl s)

theorem markFailed_tableKept : TableKept s (markFailed p s) := .modRest rfl (.inr rfl) rfl rfl rfl

theorem failInFault_tableKept : TableKept s (failInFault p s) :=
  .ite ((joinInFault_tableKept _ _).comp (markFailed_tableKept p s)) (markFailed_tableKept p s)

theorem promoteInFault_tableKept : TableKept s (promoteInFault s) :=
  .foldl (fun t r => .ite (failInFault_tableKept r t) (.refl t)) allPairs s

theorem enterFault_tableKept : TableKept s (enterFault m s) := by
  unfold enterFault; dsimp only; split
  · exact (promoteInFault_tableKept _).comp ((setFactor_tableKept _ 1).comp (.of_pairs rfl))
  · exact .refl s

theorem joinTrigger_tableKept : TableKept s (joinTrigger m s) :=
  .ite (.refl s) (.ite (joinInFault_tableKept m s) (enterFault_tableKept m s))

theorem failPair_tableKept : TableKept s (failPair p s) :=
  .ite ((joinTrigger_tableKept _ _).comp (markFailed_tableKept p s)) (markFailed_tableKept p s)

theorem passLimit_tableKept (h : HoldOff) : TableKept s (passLimit h s) :=
  .comp (.foldl (fun t r => .ite (failPair_tableKept r t) (.refl t)) (promotionOrder _) _) (.refl s)

theorem releaseHoldoff_tableKept : TableKept s (releaseHoldoff s) := (setFactor_tableKept _ 1).comp (.of_pairs rfl)

theorem enterHoldoff_tableKept : TableKept s (enterHoldoff s) := (setFactor_tableKept _ _).comp (.of_pairs rfl)

theorem enterLost_tableKept : TableKept s (enterLost s) :=
  .ite ((joinTrigger_tableKept _ _).comp (.of_pairs rfl)) (.refl s)

theorem suspectSample_tableKept : TableKept s (suspectSample p s) := by
  have hconfirm : TableKept s (s.modPair p fun q => { q with hev := { q.hev with confirm := q.hev.confirm + 1 } }) :=
    .modRest rfl (.inl rfl) rfl rfl rfl
  have hheld (t : State) : TableKept t (holdPromotion p t) := .modRest rfl (.inl rfl) rfl rfl rfl
  exact .ite (.ite (.refl s) (failPair_tableKept p s))
    (.ite (.ite ((hheld _).comp hconfirm) ((failPair_tableKept p _).comp hconfirm)) hconfirm)

theorem judgeHealth_tableKept : TableKept s (judgeHealth p s) := by
  unfold judgeHealth; dsimp only; split
  · exact .modRest rfl (.inr rfl) rfl rfl rfl
  · exact .modRest rfl (.inr rfl) rfl rfl rfl
  · exact .ite (suspectSample_tableKept p s) (.modRest rfl (.inr rfl) rfl rfl rfl)

theorem endWindow_tableKept : TableKept s (endWindow p s) := by
  unfold endWindow; split
  · exact .refl s
  · have hjudged (t : State) (c : WindowClass) : TableKept t (judgeWindow p c t) :=
      .ite ((judgeHealth_tableKept p _).comp (.modHev rfl)) (.refl t)
    exact .comp (.modHev rfl) ((hjudged _ _).comp (.modHev rfl))

theorem quiesceRecord_tableKept (commit : Clock) : TableKept s (quiesceRecord p commit s) :=
  .ite (.modRest rfl (.inr rfl) rfl rfl rfl) (.modRest rfl (.inl rfl) rfl rfl rfl)

theorem resumeRecord_tableKept : TableKept s (resumeRecord p s) :=
  .ite (.modRest rfl (.inr rfl) rfl rfl rfl) (.modRest rfl (.inl rfl) rfl rfl rfl)

theorem overrunQuiesce_tableKept : TableKept s (overrunQuiesce p s) :=
  .comp (.modRest rfl (.inr rfl) rfl rfl rfl) (.refl s)

theorem missPulse_tableKept (n : StreamIx) : TableKept s (missPulse n s) :=
  .ite ((joinTrigger_tableKept _ _).comp (.of_pairs rfl)) (.refl s)

theorem pulseRecord_tableKept (n : StreamIx) (commit : Clock) : TableKept s (pulseRecord n commit s) := by
  unfold pulseRecord; dsimp only
  exact .comp (.refl _) (.ite (.refl s) (.refl s))

end

/-! ### The Echo Checker and the Probe Engine (section 7) -/

section
variable (s : State)

theorem handOver_tableKept : TableKept s (handOver s) := by
  unfold handOver; split
  · exact .ite (.refl s) (.refl s)
  · exact .refl s

theorem giveUpLine_tableKept : TableKept s (giveUpLine s) := by
  unfold giveUpLine; split <;> exact .refl s

theorem giveUpIf_tableKept (k : Purpose) : TableKept s (giveUpIf k s) := .ite (giveUpLine_tableKept s) (.refl s)

theorem retireEntry_tableKept (e : EchoEntry) : TableKept s (retireEntry e s) :=
  .ite ((giveUpIf_tableKept _ _).comp (.of_pairs rfl)) (.refl s)

theorem countEcho_tableKept (f : EchoCounters → EchoCounters) : TableKept s (countEcho f s) := .refl s

theorem echoFinding_tableKept (p : PairIx) (c : Cause) : TableKept s (echoFinding p c s) :=
  (echoFinding_finding s p c).tableKept

theorem compareEntry_tableKept (e : EchoEntry) : TableKept s (compareEntry e s) :=
  .ite (.ite (retireEntry_tableKept s e) ((echoFinding_tableKept _ _ _).comp (retireEntry_tableKept s e))) (.refl s)

theorem entryRead_tableKept (e : EchoEntry) (i : Nat) (d : LineData) : TableKept s (entryRead e i d s) :=
  .ite ((compareEntry_tableKept _ _).comp (.of_pairs rfl)) (.refl s)

theorem lineRead_tableKept (k : SlotKey) (i : Nat) (d : LineData) : TableKept s (lineRead k i d s) := by
  unfold lineRead; split
  · exact .refl s
  · exact entryRead_tableKept s _ i d

theorem overtake_tableKept (k : SlotKey) : TableKept s (overtake k s) := by
  unfold overtake; split
  · exact .refl s
  · exact retireEntry_tableKept s _

theorem dropOldest_tableKept : TableKept s (dropOldest s) := by
  unfold dropOldest; split
  · exact .refl s
  · exact .ite (.refl s) (retireEntry_tableKept s _)

theorem appendEcho_tableKept (p : PairIx) (r : Record) : TableKept s (appendEcho p r s) :=
  .ite (.refl s) (dropOldest_tableKept s)

theorem endSingle_tableKept (o : SingleOutcome) : TableKept s (endSingle o s) := by
  unfold endSingle; split <;> exact .refl s

theorem takeLine_tableKept (l : LineInHand) : TableKept s (takeLine l s) := (handOver_tableKept _).comp (.of_pairs rfl)

theorem takeEntryLine_tableKept : TableKept s (takeEntryLine s) := by
  unfold takeEntryLine; split
  · exact .refl s
  · split
    · exact .refl s
    · exact takeLine_tableKept s _

theorem takeQueueHead_tableKept : TableKept s (takeQueueHead s) := by
  unfold takeQueueHead; split <;> exact .refl s

theorem prbTake_tableKept : TableKept s (prbTake s) := by
  unfold prbTake
  refine .ite (.refl s) ?_
  split
  · exact takeLine_tableKept s _
  · exact .ite (takeEntryLine_tableKept s) ((takeEntryLine_tableKept _).comp (takeQueueHead_tableKept s))

theorem starveLine_tableKept (l : LineInHand) : TableKept s (starveLine l s) := by
  unfold starveLine; split
  · exact endSingle_tableKept s _
  · split
    · exact .refl s
    · exact (echoFinding_tableKept _ _ _).comp (retireEntry_tableKept s _)

theorem starveInHand_tableKept : TableKept s (starveInHand s) := by
  unfold starveInHand; split
  · exact (starveLine_tableKept _ _).comp (giveUpLine_tableKept s)
  · exact .refl s

theorem abortByClock_tableKept : TableKept s (abortByClock s) := by
  unfold abortByClock; dsimp only
  refine .ite ?_ (.refl s)
  split
  · exact .refl s
  · exact (starveLine_tableKept _ _).comp (.of_pairs rfl)
  · exact .ite (.refl s) ((starveLine_tableKept _ _).comp (.of_pairs rfl))

theorem lineOutcome_tableKept (v : Bool) (d : LineData) : TableKept s (lineOutcome v d s) := by
  unfold lineOutcome; split
  · dsimp only
    refine .ite (.refl s) ?_
    split
    · exact (endSingle_tableKept _ _).comp (.of_pairs rfl)
    · refine .ite (.refl s) ?_
      split
      · exact .refl s
      · exact (entryRead_tableKept _ _ _ _).comp (.of_pairs rfl)
  · exact .refl s

theorem judgeOverdue_tableKept (e : EchoEntry) : TableKept s (judgeOverdue e s) :=
  (echoFinding_tableKept _ _ _).comp (.ite (.refl s) ((retireEntry_tableKept _ _).comp (.of_pairs rfl)))

theorem switchProbeOff_tableKept : TableKept s (switchProbeOff s) := by
  have hwatching := giveUpIf_tableKept s .currentEntry
  unfold switchProbeOff; dsimp only; split
  · exact (endSingle_tableKept _ _).comp ((giveUpIf_tableKept _ _).comp hwatching)
  · exact hwatching

theorem withdrawStream_tableKept (n : StreamIx) : TableKept s (withdrawStream n s) :=
  .foldl (fun t e => (countEcho_tableKept _ _).comp (retireEntry_tableKept t e)) _ s

theorem flushEcho_tableKept : TableKept s (flushEcho s) := (endSingle_tableKept _ _).comp (.of_pairs rfl)

end

/-! ### The Record Assembler (section 3) -/

theorem AssemblerOnly.tableKept {n : StreamIx} {s t : State} (h : AssemblerOnly n s t) : TableKept s t := by
  rw [h.frame]; exact .refl s

/-! ### The Correlator (section 4) -/

/-- A tag that a pair does not hold joins its open list below the quota, counted (R53). -/
theorem joined_tableKept {q r : Pair} {e : Entry} (hdesc : r.desc.quota = q.desc.quota) (hhealth : r.health = q.health)
    (hen : q.health.enabled = true) (hopen : r.openList = q.openList ++ [e]) (hlate : r.lateList = q.lateList)
    (hout : r.counters.outstanding = q.counters.outstanding + 1) (hnew : e.tag ∉ q.tags)
    (hroom : q.entryCount ≠ q.desc.quota) : q.TableKept r := by
  have htags : r.tags.Perm (e.tag :: q.tags) := by
    rw [Pair.tags, hopen, hlate, List.map_append, List.append_assoc]
    exact List.perm_middle
  have hlength : r.tags.length = q.tags.length + 1 := htags.length_eq
  refine ⟨⟨fun _ hr => ?_, fun _ hq => ?_, fun hd => ?_, fun _ hb => ?_⟩, fun _ hr => ?_⟩
  · rw [hhealth] at hr; rw [hr] at hen; cases hen
  · rw [← tags_length] at hroom
    unfold Pair.WithinQuota at hq ⊢
    omega
  · exact htags.nodup_iff.mpr (List.nodup_cons.mpr ⟨hnew, hd⟩)
  · rw [balanced_iff] at hb ⊢
    rw [hout, hb, hlength, BitVec.ofNat_add]
    rfl
  · rw [hhealth] at hr; rw [hr] at hen; cases hen

section
variable (p : PairIx) (r : Record) (s : State)

theorem addUntracked_tableKept (k : BitVec 32) : TableKept s (addUntracked p k s) := .modRest rfl (.inl rfl) rfl rfl rfl

theorem retryRequest_tableKept : TableKept s (retryRequest p r s) := by
  refine .modPair (.moved rfl (.inl rfl) (List.Perm.of_eq ?_) rfl)
  simp only [Pair.tags, List.map_map]
  refine congrArg₂ (· ++ ·) (List.map_congr_left fun e _ => ?_) (List.map_congr_left fun e _ => ?_)
  · dsimp only [Function.comp_apply]; split <;> rfl
  · dsimp only [Function.comp_apply]; split <;> rfl

theorem insertRequest_tableKept (hen : (s.pair p).health.enabled = true) (hnew : r.tag ∉ (s.pair p).tags) :
    TableKept s (insertRequest p r s) := by
  unfold insertRequest
  by_cases hquota : (s.pair p).entryCount = (s.pair p).desc.quota
  · rw [if_pos hquota]
    exact (addUntracked_tableKept p _ 1).comp (.of_pairs rfl)
  · rw [if_neg hquota]
    have hjoined : TableKept s (countPair p (fun c => { c with tracked := c.tracked + 1 })
        (s.modPair p fun q => { q with openList := q.openList ++ [newEntry r] })) := by
      rw [countPair, modPair_modPair]
      exact .modPair (joined_tableKept (e := newEntry r) rfl rfl hen rfl rfl
        (by simp only [PairCounters.outstanding]; ring) hnew hquota)
    exact .ite ((addUntracked_tableKept p _ 1).comp (.of_pairs rfl)) (.ite ((examineOpen_tableKept p _).comp hjoined) hjoined)

/-- A tag that neither list of a pair holds (R52). -/
theorem not_mem_tags {q : Pair} {tag : BitVec 32} :
    tag ∉ q.tags ↔ ¬ ((q.openWith tag).isSome ∨ (q.lateWith tag).isSome) := by
  simp [Pair.tags, Pair.openWith, Pair.lateWith]

theorem handleRequest_tableKept (ha : (s.pair p).health.active = true) : TableKept s (handleRequest p r s) := by
  have hunseen : TableKept s (countUnseen p r s) := by
    rw [countUnseen_eq]; exact addUntracked_tableKept p s _
  unfold handleRequest
  by_cases hheld : ((s.pair p).openWith r.tag).isSome ∨ ((s.pair p).lateWith r.tag).isSome
  · rw [if_pos hheld]; exact (retryRequest_tableKept p r _).comp hunseen
  · rw [if_neg hheld]
    by_cases hd : (s.pair p).health = .draining
    · rw [if_pos hd]; exact (addUntracked_tableKept p _ 1).comp hunseen
    · rw [if_neg hd]
      have hen : (s.pair p).health.enabled = true := by
        cases hh : (s.pair p).health <;> simp_all [Health.enabled, Health.active]
      refine (insertRequest_tableKept p r _ ?_ ?_).comp hunseen
      · rw [countUnseen_eq, addUntracked, countPair, modPair_same]; exact hen
      · rw [countUnseen_eq, addUntracked, countPair, modPair_same]; exact not_mem_tags.mpr hheld

end

end Sys2Proof.Machine
end

/-! ## What completions leave of the Pairing Table -/
section

namespace Sys2Proof.Machine

/-! ### Completions (R54 to R58) -/

theorem eraseP_key_perm {α κ : Type} [DecidableEq κ] (f : α → κ) {k : κ} {l : List α} {a : α} (h : a ∈ l) (hk : f a = k) :
    (l.map f).Perm (k :: (l.eraseP fun b => decide (f b = k)).map f) := by
  obtain ⟨b, before, after, -, hb, hl, herase⟩ := List.exists_of_eraseP h (p := fun b => decide (f b = k)) (by simpa using hk)
  rw [herase, hl, List.map_append, List.map_append, List.map_cons, of_decide_eq_true hb]
  exact List.perm_middle

/-- A pair whose open entry of a tag is completed (R54). -/
def Pair.openCompleted (tag : BitVec 32) (q : Pair) : Pair :=
  { q with
    openList := removeOpen tag q.openList
    counters := { q.counters with completed := q.counters.completed + 1 } }

/-- A pair whose late entry of a tag is completed (R56). -/
def Pair.lateCompleted (tag : BitVec 32) (q : Pair) : Pair :=
  { q with
    lateList := removeLate tag q.lateList
    counters := { q.counters with late := q.counters.late + 1 } }

/-- A pair whose open entry of a tag is re-armed (R55). -/
def Pair.openRearmed (tag : BitVec 32) (e : Entry) (q : Pair) : Pair :=
  { q with openList := removeOpen tag q.openList ++ [e] }

/-- A pair whose late entry of a tag is re-armed (R57). -/
def Pair.lateRearmed (tag : BitVec 32) (e : Entry) (q : Pair) : Pair :=
  { q with lateList := removeLate tag q.lateList, openList := q.openList ++ [e] }

section
variable {q : Pair} {tag : BitVec 32}

theorem openCompleted_entriesKept {e : Entry} (he : e ∈ q.openList) (ht : e.tag = tag) :
    q.EntriesKept (q.openCompleted tag) := by
  have hperm := (eraseP_key_perm Entry.tag he ht).append_right (q.lateList.map fun e => e.entry.tag)
  refine .freed 1 rfl (.inl rfl) (List.Sublist.subperm ?_) hperm.length_eq ?_
  · exact (List.eraseP_sublist.map _).append_right _
  · simp only [PairCounters.outstanding, Pair.openCompleted, BitVec.ofNat_eq_ofNat]
    ring

theorem lateCompleted_entriesKept {e : LateEntry} (he : e ∈ q.lateList) (ht : e.entry.tag = tag) :
    q.EntriesKept (q.lateCompleted tag) := by
  have hperm := ((eraseP_key_perm (fun e : LateEntry => e.entry.tag) he ht).append_left (q.openList.map Entry.tag)).trans
    List.perm_middle
  refine .freed 1 rfl (.inl rfl) (List.Sublist.subperm ?_) hperm.length_eq ?_
  · exact (List.eraseP_sublist.map _).append_left _
  · simp only [PairCounters.outstanding, Pair.lateCompleted, BitVec.ofNat_eq_ofNat]
    ring

theorem openRearmed_tableKept {e e' : Entry} (he : e ∈ q.openList) (ht : e.tag = tag) (ht' : e'.tag = tag) :
    q.TableKept (q.openRearmed tag e') := by
  refine .moved rfl (.inl rfl) ?_ rfl
  have hperm := eraseP_key_perm Entry.tag he ht
  rw [Pair.tags, Pair.openRearmed, List.map_append, List.map_singleton, ht']
  exact (List.perm_append_singleton _ _ |>.trans hperm.symm).append_right _

theorem lateRearmed_tableKept {e : LateEntry} {e' : Entry} (he : e ∈ q.lateList) (ht : e.entry.tag = tag)
    (ht' : e'.tag = tag) : q.TableKept (q.lateRearmed tag e') := by
  refine .moved rfl (.inl rfl) ?_ rfl
  have hperm := eraseP_key_perm (fun e : LateEntry => e.entry.tag) he ht
  rw [Pair.tags, Pair.lateRearmed, List.map_append, List.map_singleton, ht', List.append_assoc]
  exact hperm.symm.append_left _

end

section
variable (p : PairIx) (r : Record) (s : State)

theorem pairedEvent_tableKept : TableKept s (pairedEvent p s) := (pairedEvent_windowOnly s p).finding.tableKept

/-- An entry freed by a completion, the drain ended if it was the last, the new head examined and the sample taken. -/
theorem completed_tableKept (l : Nat) {c : Bool} {t : State} {f : State → State} (hf : ∀ u, TableKept u (f u))
    (ho : OtherPairs p s t) (h : (s.pair p).EntriesKept (t.pair p)) :
    TableKept s (takeSample p l (if c then f (settleDraining p t) else settleDraining p t)) := by
  have hdrained := settleDraining_tableKept ho h
  exact (takeSample_tableKept p _ l).comp (.ite ((hf _).comp hdrained) hdrained)

/-- A pair changed by `f`, with an event counted in its window. -/
theorem pairedEvent_entriesKept {f : Pair → Pair} (h : (s.pair p).EntriesKept (f (s.pair p))) :
    OtherPairs p s (pairedEvent p (s.modPair p f)) ∧ (s.pair p).EntriesKept ((pairedEvent p (s.modPair p f)).pair p) := by
  have hevent := pairedEvent_windowOnly (s.modPair p f) p
  rw [← modPair_same s p f] at h
  exact ⟨fun x hx => (hevent.others x hx).trans (modPair_other s hx f), h.trans hevent.here.tableKept.toEntriesKept⟩

theorem completeOpen_tableKept {e : Entry} (he : (s.pair p).openWith r.tag = some e) :
    TableKept s (completeOpen p r e s) := by
  obtain ⟨hmem, htag⟩ := openWith_mem he
  obtain ⟨ho, hkept⟩ := pairedEvent_entriesKept p s (f := Pair.openCompleted r.tag) (openCompleted_entriesKept hmem htag)
  exact completed_tableKept p s _ (examineOpen_tableKept p) ho hkept

theorem completeLate_tableKept {e : LateEntry} (he : (s.pair p).lateWith r.tag = some e) :
    TableKept s (completeLate p r e s) := by
  obtain ⟨hmem, htag⟩ := lateWith_mem he
  obtain ⟨ho, hkept⟩ := pairedEvent_entriesKept p (post (pairSource p) .late s) (f := Pair.lateCompleted r.tag)
    (lateCompleted_entriesKept hmem htag)
  exact completed_tableKept p s _ (examineLate_tableKept p) ho hkept

theorem holdOpen_tableKept {e : Entry} (he : (s.pair p).openWith r.tag = some e) : TableKept s (holdOpen p r e s) := by
  obtain ⟨hmem, htag⟩ := openWith_mem he
  have hmoved : TableKept s (pairedEvent p (s.modPair p (Pair.openRearmed r.tag (e.rearmed r.commitTime)))) :=
    (pairedEvent_tableKept p _).comp (.modPair (openRearmed_tableKept hmem htag htag))
  exact .ite (.ite ((examineOpen_tableKept p _).comp hmoved) hmoved) (.refl s)

theorem holdLate_tableKept {e : LateEntry} (he : (s.pair p).lateWith r.tag = some e) :
    TableKept s (holdLate p r e s) := by
  obtain ⟨hmem, htag⟩ := lateWith_mem he
  have hmoved : TableKept s (pairedEvent p (s.modPair p (Pair.lateRearmed r.tag (e.entry.rearmed r.commitTime)))) :=
    (pairedEvent_tableKept p _).comp (.modPair (lateRearmed_tableKept hmem htag htag))
  refine .ite ?_ (.refl s)
  have hexamined := TableKept.ite (c := (s.pair p).openList = []) ((examineOpen_tableKept p _).comp hmoved) hmoved
  exact .ite ((examineLate_tableKept p _).comp hexamined) hexamined

theorem orphan_tableKept : TableKept s (orphan p s) :=
  (adverseEvent_windowOnly _ p).finding.tableKept.comp (.modRest rfl (.inl rfl) rfl rfl rfl)

theorem matchCompletion_tableKept : TableKept s (matchCompletion p r s) := by
  unfold matchCompletion; split
  · next e he => exact .ite (holdOpen_tableKept p r s he) (completeOpen_tableKept p r s he)
  · split
    · next e he => exact .ite (holdLate_tableKept p r s he) (completeLate_tableKept p r s he)
    · exact orphan_tableKept p s

theorem handleCompletion_tableKept : TableKept s (handleCompletion p r s) := by
  have htaint : TableKept s (taintWindow p r s) := .ite (.modHev rfl) (.refl s)
  unfold handleCompletion; dsimp only; split
  · have hmatched := (matchCompletion_tableKept p r _).comp htaint
    exact .ite ((appendEcho_tableKept _ p r).comp hmatched) hmatched
  · exact (quiesceRecord_tableKept p _ _).comp htaint
  · exact (resumeRecord_tableKept p _).comp htaint
  · exact .refl s

theorem handleRecord_tableKept : TableKept s (handleRecord r s) := by
  unfold handleRecord; split
  · exact pulseRecord_tableKept s _ _
  · split
    · exact .refl s
    · split
      · next ha => exact handleRequest_tableKept _ r s ha
      · exact .refl s
  · split
    · exact .refl s
    · exact .ite (handleCompletion_tableKept _ r s) (.refl s)
  · exact .refl s

theorem pickup_tableKept (n : StreamIx) (slot : Nat) : TableKept s (pickup n slot s) := by
  unfold pickup; split
  · exact .refl s
  · refine .ite (.modPair (.moved rfl (.inl rfl) (List.Perm.of_eq ?_) rfl)) (.refl s)
    simp only [Pair.tags, pickupLast_tags]

end

end Sys2Proof.Machine
end

/-! ## What every step leaves of the Pairing Table -/
section

namespace Sys2Proof.Machine

/-! ### The channel, time and the part's own judgements -/

section
variable (s : State)

theorem presentWrite_tableKept (a : LineAddr) (data : LineData) (mask : ByteMask) :
    TableKept s (presentWrite a data mask s) := by
  unfold presentWrite; dsimp only; split
  · exact .refl s
  · exact (asmWrite_only _ _ _ _ _ _).tableKept.comp (.ite ((overtake_tableKept _ _).comp (.of_pairs rfl)) (.refl s))

theorem presentRead_tableKept (a : LineAddr) (data : LineData) : TableKept s (presentRead a data s) := by
  unfold presentRead; dsimp only; split
  · exact .refl s
  · split
    · exact .ite ((pickup_tableKept _ _ _).comp (.of_pairs rfl)) (.refl s)
    · exact (lineRead_tableKept _ _ _ _).comp (.of_pairs rfl)
    · exact .refl s

/-- A pair freed of its entries, each counted discarded, and not left DRAINING (R69). -/
theorem discarded_tableKept {q r : Pair} (hnil : r.tags = [])
    (hcounters : r.counters = q.discarded.counters) (hhealth : r.health ≠ .draining) : q.TableKept r where
  vacant _ _ := hnil
  quota _ _ := by rw [Pair.WithinQuota, hnil]; exact Nat.zero_le _
  tags _ := by rw [hnil]; exact List.nodup_nil
  balance _ hb := by
    rw [balanced_iff] at hb ⊢
    have hout : r.counters.outstanding = q.counters.outstanding - BitVec.ofNat 32 q.tags.length := by
      rw [hcounters, tags_length]
      simp only [PairCounters.outstanding, Pair.discarded]
      ring
    rw [hout, hb, hnil, sub_self]
    rfl
  occupied _ h := absurd h hhealth

theorem discontinued_tableKept (q : Pair) : q.TableKept q.discontinued := by
  cases hh : q.health <;> simp only [Pair.discontinued, hh]
  case disabled => exact discarded_tableKept rfl rfl (by rw [Pair.discarded, hh]; decide)
  case failed => exact discarded_tableKept rfl rfl (by rw [Pair.modWindow, Pair.discarded, hh]; decide)
  all_goals exact discarded_tableKept rfl rfl nofun

theorem startDiscontinuity_tableKept : TableKept s (startDiscontinuity s) := fun p => by
  rw [startDiscontinuity_pair]
  exact (flushEcho_tableKept s p).trans (discontinued_tableKept _)

theorem endDiscontinuity_tableKept : TableKept s (endDiscontinuity s) := fun p => by
  rw [endDiscontinuity_pair]
  exact .same rfl (.inl rfl) rfl rfl rfl

theorem columnCommand_tableKept (b : BankAddr) (column : BitVec 10) (op : ColumnOp) (length : BurstLength) (auto : Bool) :
    Leads (TableKept s) (exec (.columnCommand b column op length auto) s) := by
  rw [exec_columnCommand]; exact .next (.refl s)

theorem writeDataComplete_tableKept (which : Nat) (data : LineData) (mask : ByteMask) (dur : Bool) :
    Leads (TableKept s) (execWriteDataComplete which data mask dur s) := by
  unfold execWriteDataComplete; split
  · exact .next (.refl s)
  · exact .next (.ite ((prbTake_tableKept _).comp ((presentWrite_tableKept _ _ _ _).comp (.of_pairs rfl))) (.refl s))

theorem readDataComplete_tableKept (which : Nat) (data : LineData) (dur : Bool) :
    Leads (TableKept s) (execReadDataComplete which data dur s) := by
  unfold execReadDataComplete; split
  · exact .next (.refl s)
  · exact .next (.ite (.ite ((prbTake_tableKept _).comp ((presentRead_tableKept _ _ _).comp (.of_pairs rfl))) (.refl s)) (.refl s))

theorem probeGrant_tableKept : Leads (TableKept s) (execProbeGrant s) := by
  unfold execProbeGrant; dsimp only; split <;> exact .next (.refl s)

theorem probeDataReturn_tableKept (data : LineData) (abandoned : Bool) :
    Leads (TableKept s) (execProbeDataReturn data abandoned s) := by
  unfold execProbeDataReturn; split
  · exact .next ((prbTake_tableKept _).comp ((lineOutcome_tableKept _ _ _).comp (.of_pairs rfl)))
  · exact .next (.refl s)

theorem probeGrantReleased_tableKept : Leads (TableKept s) (exec .probeGrantReleased s) := by
  by_cases hphase : s.tap.port.phase = .releasing
  · cases hline : s.tap.port.line with
    | some a => rw [exec_probeGrantReleased_held hphase hline]; exact .next (.of_pairs rfl)
    | none =>
      rw [exec_probeGrantReleased_free hphase hline]
      exact .next ((prbTake_tableKept _).comp ((handOver_tableKept _).comp (.of_pairs rfl)))
  · rw [exec_probeGrantReleased_other hphase]; exact .next (.of_pairs rfl)

theorem clockStop_tableKept : Leads (TableKept s) (execClockStop s) := by
  unfold execClockStop; split
  · exact .next ((prbTake_tableKept _).comp ((abortByClock_tableKept _).comp (.of_pairs rfl)))
  · exact .next (.refl s)

theorem returnAfterLoss_tableKept : Leads (TableKept s) (execReturnAfterLoss s) := by
  unfold execReturnAfterLoss; split
  · exact .next (.ite (.refl s) ((endDiscontinuity_tableKept _).comp ((startDiscontinuity_tableKept _).comp (.of_pairs rfl))))
  · exact .next (.refl s)

theorem corTakeRecord_tableKept : Leads (TableKept s) (execCorTakeRecord s) := by
  unfold execCorTakeRecord; split
  · exact .next (.refl s)
  · exact .next ((prbTake_tableKept _).comp ((handleRecord_tableKept _ _).comp (.of_pairs rfl)))

theorem assemblyAbandon_tableKept (n : StreamIx) (slot : Nat) : Leads (TableKept s) (execAssemblyAbandon n slot s) := by
  unfold execAssemblyAbandon; split
  · exact .next (.refl s)
  · exact .next (.ite (.refl s) (.refl s))

theorem echoOverdue_tableKept : Leads (TableKept s) (execEchoOverdue s) := by
  unfold execEchoOverdue; split
  · exact .next (.refl s)
  · exact .next ((prbTake_tableKept _).comp (judgeOverdue_tableKept s _))

theorem calmNJudgement_tableKept (high : Bool) : Leads (TableKept s) (execCalmNJudgement high s) := by
  unfold execCalmNJudgement; dsimp only; split
  · exact .next (.refl s)
  · split
    · exact .next (.ite ((enterHoldoff_tableKept _).comp (.of_pairs rfl)) (.refl s))
    · exact .next (.refl s)
    · exact .next (.refl s)

theorem holdoffRelease_tableKept : Leads (TableKept s) (execHoldoffRelease s) := by
  unfold execHoldoffRelease; split
  · exact .next (.ite (releaseHoldoff_tableKept s) (.refl s))
  · exact .next (.refl s)

theorem holdoffLimit_tableKept : Leads (TableKept s) (execHoldoffLimit s) := by
  unfold execHoldoffLimit; split
  · exact .next (.ite (passLimit_tableKept s _) (.refl s))
  · exact .next (.refl s)

end

/-! ### The managers' commands -/

section
variable (s : State)

theorem modLink_tableKept (m : Manager) (f : Link → Link) : TableKept s (s.modLink m f) := by
  cases m <;> exact .refl s

theorem answer_tableKept (m : Manager) (c : Instr) {s : State} {out : State × Reply} (h : TableKept s out.1) :
    TableKept s (answer m c s out) :=
  .ite (modLink_tableKept s m _) ((modLink_tableKept _ m _).comp h)

theorem takenSetStream_tableKept (o : SetStreamOps) : TableKept s (takenSetStream o s).1 := by
  unfold takenSetStream; split
  · exact .refl s
  split
  · exact .refl s
  split
  · exact .refl s
  split <;> exact .refl s

theorem takenEnableStream_tableKept (b : Byte) : TableKept s (takenEnableStream b s).1 := by
  unfold takenEnableStream; split
  · exact .refl s
  split
  · exact .refl s
  split <;> exact .refl s

theorem takenDisableStream_tableKept (b : Byte) : TableKept s (takenDisableStream b s).1 := by
  unfold takenDisableStream; split
  · exact .refl s
  split
  · exact (prbTake_tableKept _).comp ((withdrawStream_tableKept _ _).comp (.of_pairs rfl))
  · exact .refl s

/-- A DISABLED pair with no entries is within any quota (R43). -/
theorem described_tableKept {q : Pair} (hd : q.health = .disabled) (d : PairDesc) : q.TableKept { q with desc := d } where
  vacant := id
  quota hv _ := by
    have hnil : q.tags = [] := hv hd
    show q.tags.length ≤ _
    rw [hnil]
    exact Nat.zero_le _
  tags := id
  balance _ := id
  occupied := id

theorem takenSetPair_tableKept (o : SetPairOps) : TableKept s (takenSetPair o s).1 := by
  unfold takenSetPair; split
  · exact .refl s
  next p _ =>
  split
  · exact .refl s
  next hd =>
  split
  · dsimp only
    split
    · exact .refl s
    split
    · exact .refl s
    split
    · exact .refl s
    exact (recomputeT_tableKept _ _).comp (.modPair (described_tableKept (not_not.mp hd) _))
  · exact .refl s

/-- A DISABLED pair put into service has nothing to account for (R45). -/
theorem started_tableKept {q : Pair} (hd : q.health = .disabled) (w : EvalWindow) : q.TableKept (q.started w) where
  vacant _ h := by cases h
  quota _ := id
  tags := id
  balance hv _ := by
    have hnil : (q.started w).tags = [] := hv hd
    rw [balanced_iff, hnil]
    exact sub_self _
  occupied _ h := by cases h

theorem takenEnablePair_tableKept (b : Byte) : TableKept s (takenEnablePair b s).1 := by
  unfold takenEnablePair; split
  · exact .refl s
  next p _ =>
  split
  · exact .refl s
  next hd =>
  split
  · exact .refl s
  exact (recomputeT_tableKept _ _).comp (.modPair (started_tableKept (not_not.mp hd) _))

theorem takenRetirePair_tableKept (b : Byte) : TableKept s (takenRetirePair b s).1 := by
  unfold takenRetirePair; split
  · exact .refl s
  next p _ =>
  have hretired : TableKept s (settleDraining p (s.modPair p Pair.retired)) :=
    settleDraining_tableKept (fun _ hr => modPair_other s hr _) (by
      rw [modPair_same]
      exact .freed 0 rfl (.inr nofun) (List.Subperm.refl _) rfl (by simp [Pair.retired]))
  split
  · exact .refl s
  · exact .refl s
  · exact .refl s
  all_goals exact hretired

theorem takenClearPair_tableKept (b : Byte) : TableKept s (takenClearPair b s).1 := by
  unfold takenClearPair; split
  · exact .refl s
  split
  · exact .refl s
  exact .ite (.modRest rfl (.inr rfl) rfl rfl rfl) (.modRest rfl (.inr rfl) rfl rfl rfl)

theorem takenSetSource_tableKept (o : SetSourceOps) : TableKept s (takenSetSource o s).1 := by
  unfold takenSetSource; split
  · exact .refl s
  · split <;> exact .refl s

theorem takenSetThreshold_tableKept (target v : Byte) : TableKept s (takenSetThreshold target v s).1 := by
  unfold takenSetThreshold; split <;> exact .refl s

theorem takenAcknowledge_tableKept (m : Manager) (b : Byte) : TableKept s (takenAcknowledge m b s).1 := by
  unfold takenAcknowledge; split
  · exact .refl s
  split
  · exact .refl s
  split <;> exact .refl s

theorem takenSetVerdict_tableKept (o : SetVerdictOps) : TableKept s (takenSetVerdict o s).1 := by
  have hloss (b : Bool) (t : State) : TableKept t (actOnLossSettings b t) :=
    have hlost : TableKept t (if lossDue t then enterLost t else t) := .ite (enterLost_tableKept t) (.refl t)
    .ite (.ite ((joinTrigger_tableKept _ _).comp hlost) (.ite hlost hlost)) hlost
  have hlimit (t : State) : TableKept t (actOnHoldoffLimit t) := by
    unfold actOnHoldoffLimit; split
    · exact .ite (releaseHoldoff_tableKept t) (.ite (passLimit_tableKept t _) (.refl t))
    · exact .refl t
  have hsettle (t : State) : TableKept t (actOnReleaseSettle t) := by
    unfold actOnReleaseSettle; split
    · exact .ite (releaseHoldoff_tableKept t) (.refl t)
    · exact .refl t
  have hfactor (t : State) : TableKept t (actOnFactor t) := by
    unfold actOnFactor; split
    · exact .ite (setFactor_tableKept t _) (.refl t)
    · exact .refl t
  unfold takenSetVerdict; split
  · exact (hfactor _).comp ((hsettle _).comp ((hlimit _).comp ((hloss _ _).comp (.of_pairs rfl))))
  · exact .refl s

theorem takenClearBoard_tableKept : TableKept s (takenClearBoard s).1 := by
  unfold takenClearBoard; split
  · split <;> exact .refl s
  · exact .refl s
  · exact .refl s

theorem takenSetProbe_tableKept (mode : Byte) (limit : BitVec 32) : TableKept s (takenSetProbe mode limit s).1 := by
  unfold takenSetProbe; split
  · exact .refl s
  · next fetch _ =>
    have hset : TableKept s (State.modEcho (fun e => { e with fetchCheck := fetch, waitLimit := clampTo 1 65535 limit.toNat })
        (if s.echo.fetchCheck ∧ ¬ fetch then switchProbeOff s else s)) :=
      .comp (.refl _) (.ite (switchProbeOff_tableKept s) (.refl s))
    exact (prbTake_tableKept _).comp (.ite ((starveInHand_tableKept _).comp hset) hset)

theorem takenProbeLine_tableKept (a : BitVec 40) : TableKept s (takenProbeLine a s).1 := by
  unfold takenProbeLine; split
  · exact .refl s
  split
  · exact .refl s
  exact (prbTake_tableKept _).comp (.of_pairs rfl)

theorem takenSetTime_tableKept (sec : BitVec 32) (tick : BitVec 16) : TableKept s (takenSetTime sec tick s).1 := by
  unfold takenSetTime; split <;> exact .refl s

theorem takenReadStream_tableKept (b : Byte) : TableKept s (takenReadStream b s).1 := by
  unfold takenReadStream; split <;> exact .refl s

theorem takenReadPair_tableKept (b : Byte) : TableKept s (takenReadPair b s).1 := by
  unfold takenReadPair; split <;> exact .refl s

theorem takenReadEstimate_tableKept (b : Byte) : TableKept s (takenReadEstimate b s).1 := by
  unfold takenReadEstimate; split <;> exact .refl s

theorem takenReadSource_tableKept (b : Byte) : TableKept s (takenReadSource b s).1 := by
  unfold takenReadSource; split <;> exact .refl s

end

/-! ### Every step -/

/-- The invariants of the Pairing Table hold at the reset values. -/
theorem AtReset.tableKept {t : State} (h : AtReset t) (s : State) : TableKept s t := fun p => by
  have hnil : (t.pair p).tags = [] := by rw [h.pairs]; rfl
  refine ⟨⟨fun _ _ => hnil, fun _ _ => ?_, fun _ => ?_, fun _ _ => ?_⟩, fun _ hr => ?_⟩
  · rw [Pair.WithinQuota, hnil]; exact Nat.zero_le _
  · rw [hnil]; exact List.nodup_nil
  · rw [balanced_iff, hnil, h.pairs]; rfl
  · rw [h.pairs] at hr; cases hr

theorem resetPart_tableKept (l : Manager) (s : State) : TableKept s (unlessVoid l (.resetPart l) s
    (((resetBlocks s).modLink l (Link.resetCarrying (.resetPart l))).modLink (otherManager l) Link.resetByPart)) :=
  .ite (modLink_tableKept s l _) ((((resetBlocks_atReset s).modLink l _).modLink (otherManager l) _).tableKept s)

theorem exec_tableKept (c : Instr) (s : State) : Leads (TableKept s) (exec c s) := by
  cases c with
  | powerOnReset straps => exact .next ((powerOnReset_atReset straps _ _ _).tableKept s)
  | tickBoundary => exact .next (.of_pairs rfl)
  | rowActivate | bankPrecharge => exact .next (.of_pairs rfl)
  | rankPrecharge rank => exact .next (.of_pairs (modTap_pairs s _))
  | columnCommand b column op length auto => exact columnCommand_tableKept s b column op length auto
  | writeDataComplete which data mask dur => exact writeDataComplete_tableKept s which data mask dur
  | readDataComplete which data dur => exact readDataComplete_tableKept s which data dur
  | corTakeRecord => exact corTakeRecord_tableKept s
  | assemblyAbandon n slot => exact assemblyAbandon_tableKept s n slot
  | silence n => exact .next (.ite (.refl s) (.refl s))
  | entryExpiry p => exact .next (examineOpen_tableKept p s)
  | entryLoss p => exact .next (examineLate_tableKept p s)
  | windowEnd p => exact .next (.ite (endWindow_tableKept p s) (.refl s))
  | quiesceOverrun p => exact .next (.ite (overrunQuiesce_tableKept p s) (.refl s))
  | pulseMissed n => exact .next (.ite (missPulse_tableKept s n) (.refl s))
  | echoOverdue => exact echoOverdue_tableKept s
  | probeGrant => exact probeGrant_tableKept s
  | probeDataReturn data abandoned => exact probeDataReturn_tableKept s data abandoned
  | probeGrantReleased => exact probeGrantReleased_tableKept s
  | grantWaitExpiry => exact .next (.ite ((prbTake_tableKept _).comp (starveInHand_tableKept s)) (.refl s))
  | clockStop => exact clockStop_tableKept s
  | channelLoss => exact .next (.ite (enterLost_tableKept s) (.refl s))
  | clockResume => exact .next (.ite (.refl s) (.refl s))
  | returnAfterLoss => exact returnAfterLoss_tableKept s
  | boardResetAsserted => exact .next (.ite (.refl s) ((startDiscontinuity_tableKept _).comp (.of_pairs rfl)))
  | boardResetReleased =>
    exact .next (.ite ((prbTake_tableKept _).comp ((endDiscontinuity_tableKept _).comp (.of_pairs rfl))) (.refl s))
  | calmNJudgement high => exact calmNJudgement_tableKept s high
  | holdoffRelease => exact holdoffRelease_tableKept s
  | holdoffLimit => exact holdoffLimit_tableKept s
  | addressCharacter l | dataCharacter l | frameGapTimeout l | replyComplete l | abandonedReplyStop l =>
    exact .next (modLink_tableKept s l _)
  | readSummary l | claim l | readVerdict l | readTime l | readProbe l => exact .next (answer_tableKept l _ (.refl s))
  | setStream l o => exact .next (answer_tableKept l _ (takenSetStream_tableKept s o))
  | readStream l b => exact .next (answer_tableKept l _ (takenReadStream_tableKept s b))
  | enableStream l b => exact .next (answer_tableKept l _ (takenEnableStream_tableKept s b))
  | disableStream l b => exact .next (answer_tableKept l _ (takenDisableStream_tableKept s b))
  | setPair l o => exact .next (answer_tableKept l _ (takenSetPair_tableKept s o))
  | readPair l b => exact .next (answer_tableKept l _ (takenReadPair_tableKept s b))
  | enablePair l b => exact .next (answer_tableKept l _ (takenEnablePair_tableKept s b))
  | retirePair l b => exact .next (answer_tableKept l _ (takenRetirePair_tableKept s b))
  | clearPair l b => exact .next (answer_tableKept l _ (takenClearPair_tableKept s b))
  | readEstimate l b => exact .next (answer_tableKept l _ (takenReadEstimate_tableKept s b))
  | setSource l o => exact .next (answer_tableKept l _ (takenSetSource_tableKept s o))
  | readSource l b => exact .next (answer_tableKept l _ (takenReadSource_tableKept s b))
  | setThreshold l target v => exact .next (answer_tableKept l _ (takenSetThreshold_tableKept s target v))
  | acknowledge l b => exact .next (answer_tableKept l _ (takenAcknowledge_tableKept s l b))
  | setVerdict l o => exact .next (answer_tableKept l _ (takenSetVerdict_tableKept s o))
  | clearBoard l => exact .next (answer_tableKept l _ (takenClearBoard_tableKept s))
  | setProbe l mode limit => exact .next (answer_tableKept l _ (takenSetProbe_tableKept s mode limit))
  | probeLine l a => exact .next (answer_tableKept l _ (takenProbeLine_tableKept s a))
  | setTime l sec tick => exact .next (answer_tableKept l _ (takenSetTime_tableKept s sec tick))
  | resetPart l => exact .next (resetPart_tableKept l s)

theorem step_tableKept {s t : State} (h : step s = .next t) : TableKept s t := by
  unfold step at h
  split at h
  · cases h; exact .refl s
  · next c rest _ => exact (TableKept.refl s).trans (exec_tableKept c { s with pending := rest } t h)

/-- Settles O11. -/
theorem stepKeepsThePairingTable : Obligations.StepKeepsThePairingTable :=
  ⟨fun _ _ hs h => (step_tableKept h).entriesHold hs, fun _ _ hs h => (step_tableKept h).tagsDistinct hs,
    fun _ _ hs h => (step_tableKept h).countersBalance hs⟩

end Sys2Proof.Machine
end

/-! ## A pair and its source after the head of a list is examined -/
section

namespace Sys2Proof.Machine

/-! ### One pair changed, with or without a cause posted -/

theorem post_modPair (i : SourceIx) (c : Cause) (p : PairIx) (f : Pair → Pair) (s : State) :
    (post i c s).modPair p f = post i c (s.modPair p f) := rfl

/-- Whether the sources took one posting depends on the sources and the stamp clock alone. -/
theorem posted_of_iar {i : SourceIx} {c : Cause} {s t : State} (h : t.iar = (post i c s).iar) : Posted i c s t := by
  have hposted := post_posted s i c
  simpa only [Posted, PostedAt, OtherSources, State.source, h] using hposted

/-! ### The window's event of an expiry or a loss (R89, R90) -/

/-- A pair with an expiry or a loss counted in its window. -/
def Pair.expiryCounted (q : Pair) : Pair :=
  if q.health.enabled ∧ q.health ≠ .quiesced then q.modWindow EvalWindow.countExpiry else q

theorem expiryEvent_eq (p : PairIx) (s : State) : expiryEvent p s = s.modPair p Pair.expiryCounted :=
  modPair_if (c := fun q => q.health.enabled = true ∧ q.health ≠ .quiesced) _

theorem countExpiry_eq : EvalWindow.countExpiry
    = fun w => if w.taint = true ∨ w.held = true then w else { w with adverse := satInc w.adverse } := by
  funext w
  unfold EvalWindow.countExpiry EvalWindow.countAdverse
  cases w.taint <;> simp

theorem expiryCounted_eq {q : Pair} (h : q.health ≠ .disabled) : q.expiryCounted = { q with hev := { q.hev with
    window := if q.health = .draining ∨ q.health = .quiesced then q.hev.window
      else q.hev.window.map fun w =>
        if w.taint = true ∨ w.held = true then w else { w with adverse := satInc w.adverse } } } := by
  have hcounts : (q.health.enabled = true ∧ q.health ≠ .quiesced) ↔ ¬ (q.health = .draining ∨ q.health = .quiesced) := by
    cases hh : q.health <;> simp_all [Health.enabled]
  by_cases hd : q.health = .draining ∨ q.health = .quiesced
  · rw [Pair.expiryCounted, if_neg (fun k => hcounts.mp k hd), if_pos hd]
  · rw [Pair.expiryCounted, if_pos (hcounts.mpr hd), if_neg hd, Pair.modWindow, countExpiry_eq]

theorem drained_eq (q : Pair) : q.drained = { q with
    health := if q.health = .draining ∧ q.openList = [] ∧ q.lateList = [] then .disabled else q.health } := by
  unfold Pair.drained
  split <;> rfl

theorem active_of_ne_disabled {h : Health} (hd : h ≠ .disabled) : h.active = true := by
  cases h
  case disabled => exact absurd rfl hd
  all_goals rfl

/-! ### The head of a list, and the one behind it -/

theorem takeWhile_head {α : Type} {g : α → Bool} {a : α} {l : List α} (ha : g a = true)
    (hl : ∀ b, l.head? = some b → g b = false) : (a :: l).takeWhile g = [a] ∧ (a :: l).dropWhile g = l := by
  rw [List.takeWhile_cons_of_pos ha, List.dropWhile_cons_of_pos ha]
  cases l with
  | nil => exact ⟨rfl, rfl⟩
  | cons b l => simp [hl b rfl]

theorem takeWhile_nothing {α : Type} {g : α → Bool} {l : List α} (hl : ∀ b, l.head? = some b → g b = false) :
    l.takeWhile g = [] ∧ l.dropWhile g = l := by
  cases l with
  | nil => exact ⟨rfl, rfl⟩
  | cons b l => simp [hl b rfl]

theorem dropWhile_head {α : Type} {g : α → Bool} {l : List α} {a : α} (h : (l.dropWhile g).head? = some a) : g a = false := by
  have hnot := List.head?_dropWhile_not g l
  rw [h] at hnot
  exact hnot

section
variable {s : State} {p : PairIx}

/-- The head of an open list expires alone (R62). -/
theorem examineOpen_head {e : Entry} {rest : List Entry} (ha : (s.pair p).health.active = true)
    (hopen : (s.pair p).openList = e :: rest) (hdue : (s.pair p).timeout ≤ e.age s.clock)
    (hnext : ∀ f, rest.head? = some f → f.age s.clock < (s.pair p).timeout) :
    examineOpen p s = expiryFinding p (s.modPair p fun q =>
      { q with openList := rest, lateList := q.lateList ++ [⟨e, s.clock⟩] }) e := by
  obtain ⟨htake, hdrop⟩ := takeWhile_head (g := (s.pair p).expires s.clock) (decide_eq_true hdue)
    fun f hf => decide_eq_false (Nat.not_le.mpr (hnext f hf))
  rw [examineOpen_active ha, hopen, htake]
  refine congrArg (expiryFinding p · e) (modPair_congr ?_)
  rw [Pair.headsExpired, hopen, htake, hdrop]
  rfl

/-- The head of a late list is lost alone (R63). -/
theorem examineLate_head {e : LateEntry} {rest : List LateEntry} (ha : (s.pair p).health.active = true)
    (hlate : (s.pair p).lateList = e :: rest) (hdue : (s.pair p).timeout ≤ e.time s.clock)
    (hnext : ∀ f, rest.head? = some f → f.time s.clock < (s.pair p).timeout) :
    examineLate p s = settleDraining p (lossFinding p (s.modPair p fun q =>
      { q with lateList := rest, counters := { q.counters with lost := q.counters.lost + 1 } }) e) := by
  obtain ⟨htake, hdrop⟩ := takeWhile_head (g := (s.pair p).loses s.clock) (decide_eq_true hdue)
    fun f hf => decide_eq_false (Nat.not_le.mpr (hnext f hf))
  rw [examineLate_active ha, hlate, htake]
  refine congrArg (fun t => settleDraining p (lossFinding p t e)) (modPair_congr ?_)
  rw [Pair.headsLost, hlate, htake, hdrop]
  rfl

/-- An open list whose head is not due is left alone (R62). -/
theorem examineOpen_rests (h : ∀ e, (s.pair p).openList.head? = some e → e.age s.clock < (s.pair p).timeout) :
    examineOpen p s = s := by
  cases ha : (s.pair p).health.active with
  | false => exact examineOpen_inactive ha
  | true =>
    obtain ⟨htake, hdrop⟩ := takeWhile_nothing (g := (s.pair p).expires s.clock)
      fun e he => decide_eq_false (Nat.not_le.mpr (h e he))
    rw [examineOpen_active ha, htake]
    refine modPair_unchanged s p ?_
    rw [Pair.headsExpired, htake, hdrop]
    simp

/-- A late list whose head is not due is left alone, though a drain may have ended (R47, R63). -/
theorem examineLate_rests (h : ∀ e, (s.pair p).lateList.head? = some e → e.time s.clock < (s.pair p).timeout) :
    examineLate p s = settleDraining p s := by
  cases ha : (s.pair p).health.active with
  | false =>
    have hd : (s.pair p).health ≠ .draining := fun k => by rw [k] at ha; cases ha
    rw [examineLate_inactive ha, settleDraining, if_neg fun k => hd k.1]
  | true =>
    obtain ⟨htake, hdrop⟩ := takeWhile_nothing (g := (s.pair p).loses s.clock)
      fun e he => decide_eq_false (Nat.not_le.mpr (h e he))
    rw [examineLate_active ha, htake]
    refine congrArg (settleDraining p) (modPair_unchanged s p ?_)
    rw [Pair.headsLost, htake, hdrop]
    simp

/-! ### However many heads are due -/

theorem headsLost_pair (ha : (s.pair p).health.active = true) :
    ((examineLate p s).pair p).openList = (s.pair p).openList
      ∧ ((examineLate p s).pair p).lateList = (s.pair p).lateList.dropWhile ((s.pair p).loses s.clock)
      ∧ ((examineLate p s).pair p).counters = ((s.pair p).headsLost s.clock).counters := by
  have hfound := (foldl_finding (s.modPair p (Pair.headsLost s.clock)) p (lossFinding_only · p ·)
    ((s.pair p).lateList.takeWhile ((s.pair p).loses s.clock))).here.1
  rw [modPair_same] at hfound
  rw [examineLate_active ha, settleDraining_eq, modPair_same, drained_eq, hfound]
  exact ⟨rfl, rfl, rfl⟩

theorem expiryDue_false (h : ∀ e, (s.pair p).openList.head? = some e → (s.pair p).health.active = true →
    e.age s.clock < (s.pair p).timeout) : expiryDue s p = false := by
  unfold expiryDue
  split
  · rfl
  · next e _ hopen =>
    cases ha : (s.pair p).health.active with
    | false => rfl
    | true => simpa using h e (by rw [hopen]; rfl) ha

theorem entryLossDue_false (h : ∀ e, (s.pair p).lateList.head? = some e → (s.pair p).health.active = true →
    e.time s.clock < (s.pair p).timeout) : entryLossDue s p = false := by
  unfold entryLossDue
  split
  · rfl
  · next e _ hlate =>
    cases ha : (s.pair p).health.active with
    | false => rfl
    | true => simpa using h e (by rw [hlate]; rfl) ha

theorem PairsAndSources.clock_eq {s t : State} (h : PairsAndSources s t) : t.clock = s.clock := by rw [h]

/-- Of however many open heads none is left due, and no entry has left the pair (R62). -/
theorem examineOpen_settles (p : PairIx) (s : State) :
    expiryDue (examineOpen p s) p = false ∧ ((examineOpen p s).pair p).entryCount = (s.pair p).entryCount := by
  cases ha : (s.pair p).health.active with
  | false =>
    rw [examineOpen_inactive ha]
    exact ⟨expiryDue_false fun _ _ k => absurd k (by rw [ha]; decide), rfl⟩
  | true =>
    obtain ⟨due, hopen, -, hhead, hlate⟩ := examineOpen_spec s p ha
    have hexamined := examineOpen_examined s p
    refine ⟨expiryDue_false fun e he _ => ?_, ?_⟩
    · rw [hexamined.timeout, hexamined.frame.clock_eq]
      exact hhead e he
    · rw [Pair.entryCount, Pair.entryCount, hlate, hopen, List.length_append, List.length_append, List.length_map]
      omega

/-- Of however many late heads none is left due, and each that left is counted lost (R63). -/
theorem examineLate_settles (p : PairIx) (s : State) :
    entryLossDue (examineLate p s) p = false ∧ ((examineLate p s).pair p).openList = (s.pair p).openList
      ∧ ((examineLate p s).pair p).counters.lost = (s.pair p).counters.lost
        + BitVec.ofNat 32 ((s.pair p).lateList.length - ((examineLate p s).pair p).lateList.length) := by
  cases ha : (s.pair p).health.active with
  | false =>
    rw [examineLate_inactive ha, Nat.sub_self]
    exact ⟨entryLossDue_false fun _ _ k => absurd k (by rw [ha]; decide), rfl, (BitVec.add_zero _).symm⟩
  | true =>
    obtain ⟨hopen, hlate, hcounters⟩ := headsLost_pair ha
    have hexamined := examineLate_examined s p
    refine ⟨entryLossDue_false fun e he _ => ?_, hopen, ?_⟩
    · rw [hlate] at he
      rw [hexamined.timeout, hexamined.frame.clock_eq]
      exact Nat.not_le.mp (of_decide_eq_false (dropWhile_head (g := (s.pair p).loses s.clock) he))
    · have hlength := congrArg List.length
        (List.takeWhile_append_dropWhile (p := (s.pair p).loses s.clock) (l := (s.pair p).lateList))
      rw [List.length_append] at hlength
      rw [hcounters, hlate, ← hlength, Nat.add_sub_cancel]
      rfl

end

/-! ### The statement of ENTRY_EXPIRY and ENTRY_LOSS -/

/-- Settles O43. -/
theorem expiryAndLoss : Obligations.ExpiryAndLoss := by
  refine ⟨?_, fun p s => ⟨⟨_, rfl, examineOpen_settles p s⟩, ⟨_, rfl, examineLate_settles p s⟩⟩⟩
  intro p s hd adverse
  have ha := active_of_ne_disabled hd
  refine ⟨fun e rest hopen hdue hnext => ?_, fun e rest hlate hdue hnext => ?_⟩
  · refine ⟨_, congrArg Host.Outcome.next (examineOpen_head ha hopen hdue hnext), ?_⟩
    have hfinding (s : State) : expiryFinding p s e = if (s.pair p).health = .quiesced then s.modPair p Pair.expiryCounted
        else post (pairSource p) (if e.pickup.isSome then .expiredTouched else .expiredUntouched)
          (s.modPair p Pair.expiryCounted) := by
      unfold expiryFinding
      split
      · exact expiryEvent_eq p s
      · exact expiryEvent_eq p _
    rw [hfinding, modPair_modPair, modPair_same]
    refine ⟨?_, ?_, ?_, ?_⟩
    · split <;> rfl
    · intro x hx
      split <;> exact modPair_other s hx _
    · split
      · rfl
      · exact posted_of_iar rfl
    · have hpair : ((s.modPair p fun q => Pair.expiryCounted
          { q with openList := rest, lateList := q.lateList ++ [⟨e, s.clock⟩] }).pair p) = _ :=
        (modPair_same s p _).trans (expiryCounted_eq hd)
      split <;> exact hpair
  · refine ⟨_, congrArg Host.Outcome.next (examineLate_head ha hlate hdue hnext), ?_⟩
    rw [lossFinding, expiryEvent_eq, settleDraining_eq, post_modPair, post_modPair, modPair_modPair, modPair_modPair]
    refine ⟨rfl, fun x hx => modPair_other s hx _, posted_of_iar rfl, ?_⟩
    rw [post_pair, modPair_same, expiryCounted_eq (by exact hd), drained_eq]

end Sys2Proof.Machine
end

/-! ## The Correlator inserts a request, and pauses a pair -/
section

namespace Sys2Proof.Machine

/-! ### A record that comes to one change of its pair (R50) -/

section
variable {s : State} {p : PairIx} {r : Record} {rest : List Record} {f : Pair → Pair}

theorem takesRecord (hq : s.commitQueue = r :: rest) (hs : prbSettled s)
    (h : handleRecord r { s with commitQueue := rest } = State.modPair p f { s with commitQueue := rest }) :
    exec .corTakeRecord s = .next (State.modPair p f { s with commitQueue := rest }) :=
  exec_corTakeRecord hq h (prbTake_kept hs rfl rfl)

theorem takesRecord_posting {i : SourceIx} {c : Cause} (hq : s.commitQueue = r :: rest) (hs : prbSettled s)
    (h : handleRecord r { s with commitQueue := rest } = post i c (State.modPair p f { s with commitQueue := rest })) :
    exec .corTakeRecord s = .next (post i c (State.modPair p f { s with commitQueue := rest })) :=
  exec_corTakeRecord hq h (prbTake_kept hs rfl rfl)

end

/-! ### A new request (R53) -/

/-- A pair that a new request has joined. -/
def Pair.joined (r : Record) (q : Pair) : Pair :=
  { q with
    openList := q.openList ++ [newEntry r]
    counters := { q.counters with tracked := q.counters.tracked + 1 } }

theorem entriesInUse_modPair_same {s : State} {p : PairIx} {f : Pair → Pair}
    (h : (f (s.pair p)).entryCount = (s.pair p).entryCount) : entriesInUse (s.modPair p f) = entriesInUse s := by
  have hplace (x : PairIx) : ((s.modPair p f).pair x).entryCount = (s.pair x).entryCount := by
    rw [modPair_place]
    split
    · next hx => rw [hx, h]
    · rfl
  simp only [entriesInUse_eq, hplace]

section
variable {s : State} {p : PairIx} {r : Record}

theorem handleRequest_new (hen : (s.pair p).health.enabled = true) (ho : ∀ e ∈ (s.pair p).openList, e.tag ≠ r.tag)
    (hl : ∀ e ∈ (s.pair p).lateList, e.entry.tag ≠ r.tag) :
    handleRequest p r s = insertRequest p r (s.modPair p (Pair.passed r.unseen)) := by
  have hnone : ¬ (((s.pair p).openWith r.tag).isSome ∨ ((s.pair p).lateWith r.tag).isSome) := by
    simpa [Pair.openWith, Pair.lateWith] using ⟨ho, hl⟩
  have hd : (s.pair p).health ≠ .draining := fun k => by rw [k] at hen; cases hen
  simp only [handleRequest, if_neg hnone, if_neg hd, countUnseen_eq]
  rfl

theorem insertRequest_quota (h : (s.pair p).entryCount = (s.pair p).desc.quota) :
    insertRequest p r s = post (pairSource p) .quotaFull (s.modPair p (Pair.passed 1)) := if_pos h

theorem insertRequest_pool (h : (s.pair p).entryCount ≠ (s.pair p).desc.quota) (hfull : 2048 ≤ entriesInUse s) :
    insertRequest p r s = post (pairSource p) .tableFull (s.modPair p (Pair.passed 1)) := by
  have hfull : Config.entryPoolSize ≤ entriesInUse s := hfull
  rw [insertRequest, if_neg h, if_pos hfull]
  rfl

/-- A request inserted is not at the head of its list, or is not due there. -/
theorem insertRequest_joins (h : (s.pair p).entryCount ≠ (s.pair p).desc.quota) (hroom : ¬ 2048 ≤ entriesInUse s)
    (hdue : (s.pair p).openList ≠ [] ∨ (s.clock - r.commitTime).toNat < (s.pair p).timeout) :
    insertRequest p r s = s.modPair p (Pair.joined r) := by
  have hroom : ¬ Config.entryPoolSize ≤ entriesInUse s := hroom
  have hjoined : countPair p (fun c => { c with tracked := c.tracked + 1 })
      (s.modPair p fun q => { q with openList := q.openList ++ [newEntry r] }) = s.modPair p (Pair.joined r) :=
    modPair_modPair s p _ _
  rw [insertRequest, if_neg h, if_neg hroom]
  dsimp only
  rw [hjoined]
  split
  · next hnil =>
    refine examineOpen_rests fun e he => ?_
    rw [modPair_same, Pair.joined, hnil] at he
    cases he
    rw [modPair_same]
    exact hdue.resolve_left (not_not.mpr hnil)
  · rfl

end

/-- Settles O35. -/
theorem corInsertsARequest : Obligations.CorInsertsARequest := by
  intro p r rest s hhead hs hrole hkind hen ho hl hdue unseen count
  obtain ⟨hq, hp, ha⟩ := hhead
  have hunseen : unseen = r.unseen := by
    show _ + _ = _ + _
    cases r.gap <;> rfl
  have htaken := (handleRecord_request (s := { s with commitQueue := rest }) hrole hkind hp ha).trans
    (handleRequest_new (s := { s with commitQueue := rest }) hen ho hl)
  set s1 : State := State.modPair p (Pair.passed r.unseen) { s with commitQueue := rest } with hs1
  have hpair : s1.pair p = (s.pair p).passed r.unseen := modPair_same _ p _
  have hpool : entriesInUse s1 = entriesInUse s := entriesInUse_modPair_same (s := { s with commitQueue := rest }) rfl
  have huntracked : (s.pair p).counters.untracked + unseen + 1 = (s.pair p).counters.untracked + r.unseen + 1 := by
    rw [hunseen]
  by_cases hquota : count = (s.pair p).desc.quota
  · rw [insertRequest_quota (by rw [hpair]; exact hquota), hs1, modPair_modPair] at htaken
    refine ⟨_, takesRecord_posting hq hs htaken, rfl, fun x hx => modPair_other _ hx _, ?_⟩
    rw [if_pos hquota, huntracked]
    exact ⟨posted_of_iar rfl, modPair_same _ p _⟩
  have hnotfull : (s1.pair p).entryCount ≠ (s1.pair p).desc.quota := by rw [hpair]; exact hquota
  by_cases hfull : 2048 ≤ entriesInUse s
  · rw [insertRequest_pool hnotfull (hpool ▸ hfull), hs1, modPair_modPair] at htaken
    refine ⟨_, takesRecord_posting hq hs htaken, rfl, fun x hx => modPair_other _ hx _, ?_⟩
    rw [if_neg hquota, if_pos hfull, huntracked]
    exact ⟨posted_of_iar rfl, modPair_same _ p _⟩
  · rw [insertRequest_joins hnotfull (hpool ▸ hfull) (by rw [hpair]; exact hdue), hs1, modPair_modPair] at htaken
    refine ⟨_, takesRecord hq hs htaken, rfl, fun x hx => modPair_other _ hx _, ?_⟩
    rw [if_neg hquota, if_neg hfull, hunseen]
    exact ⟨rfl, modPair_same _ p _⟩

/-! ### The taint of a completion-stream record (R60, R90) -/

/-- A pair whose running window, when it is enabled, is tainted by a record's OVERRUN mark. -/
def Pair.tainted (overrun : Bool) (q : Pair) : Pair :=
  { q with hev := { q.hev with
      window := if q.health.enabled then
          q.hev.window.map fun w => if w.held then w else { w with taint := w.taint || overrun }
        else q.hev.window } }

theorem tainted_health (overrun : Bool) (q : Pair) : (q.tainted overrun).health = q.health := rfl

theorem taintWindow_eq (p : PairIx) (r : Record) (s : State) :
    taintWindow p r s = s.modPair p (Pair.tainted r.overrun) := by
  have hclean (w : EvalWindow) : (if w.held then w else { w with taint := w.taint || false }) = w := by
    rw [Bool.or_false]; split <;> rfl
  have hmarked (w : EvalWindow) : (if w.held then w else { w with taint := w.taint || true }) = w.tainted := by
    rw [Bool.or_true]; rfl
  unfold taintWindow
  split
  · next h =>
    obtain ⟨hov, hen⟩ := h
    refine modPair_congr ?_
    rw [Pair.tainted, if_pos hen, hov]
    simp only [hmarked]
    rfl
  · next h =>
    refine (modPair_unchanged s p ?_).symm
    rw [Pair.tainted]
    cases hov : r.overrun with
    | false => simp only [hclean, Option.map_id', ite_self]
    | true => rw [if_neg fun hen => h ⟨hov, hen⟩]

/-! ### QUIESCE, RESUME and the quiesce limit (R98, R99, R100) -/

/-- A pair that a QUIESCE record has reached. -/
def Pair.paused (commit : Clock) (q : Pair) : Pair :=
  match q.health with
  | .healthy | .watch | .suspect =>
    { q with
      health := .quiesced
      hev := { q.hev with
        confirm := 0, promotionPending := false, quiesceStart := some commit
        counters := { q.hev.counters with quiesces := satInc q.hev.counters.quiesces } } }
  | _ => q.countIgnored

/-- A pair that a RESUME record has reached. -/
def Pair.unpaused (w : EvalWindow) (q : Pair) : Pair :=
  match q.health with
  | .quiesced =>
    let q := q.resumed w
    { q with hev := { q.hev with counters := { q.hev.counters with resumes := satInc q.hev.counters.resumes } } }
  | _ => q.countIgnored

theorem quiesceRecord_eq (p : PairIx) (commit : Clock) (s : State) :
    quiesceRecord p commit s = s.modPair p (Pair.paused commit) := by
  unfold quiesceRecord
  cases hh : (s.pair p).health <;> exact modPair_congr (by simp only [Pair.paused, hh])

theorem resumeRecord_eq (p : PairIx) (s : State) : resumeRecord p s = s.modPair p (Pair.unpaused (freshWindow s)) := by
  unfold resumeRecord
  cases hh : (s.pair p).health <;> exact modPair_congr (by simp only [Pair.unpaused, hh])

theorem handleRecord_completion {s : State} {p : PairIx} {r : Record} (hrole : (s.stream r.stream).desc.role = .completion)
    (hp : s.pairOf r.stream = some p) (ha : (s.pair p).health.active = true) :
    handleRecord r s = handleCompletion p r s := by
  simp only [handleRecord, hrole, hp, ha, if_true]

theorem handleCompletion_quiesce {s : State} {p : PairIx} {r : Record} (hkind : r.kind = .quiesce) :
    handleCompletion p r s = s.modPair p fun q => (q.tainted r.overrun).paused r.commitTime := by
  simp only [handleCompletion, hkind, taintWindow_eq, quiesceRecord_eq, modPair_modPair]

theorem handleCompletion_resume {s : State} {p : PairIx} {r : Record} (hkind : r.kind = .resume) :
    handleCompletion p r s = s.modPair p fun q => (q.tainted r.overrun).unpaused (freshWindow s) := by
  simp only [handleCompletion, hkind, taintWindow_eq, resumeRecord_eq, modPair_modPair]
  rfl

/-- Settles O40. -/
theorem quiesceAndResume : Obligations.QuiesceAndResume := by
  intro p r rest s fresh tainted ignored resumed
  refine ⟨fun hhead hs hrole => ?_, fun hquiesced hdue => ?_⟩
  · obtain ⟨hq, hp, ha⟩ := hhead
    have htaken := handleRecord_completion (s := { s with commitQueue := rest }) hrole hp ha
    refine ⟨fun hkind => ?_, fun hkind => ?_⟩
    · refine ⟨_, takesRecord hq hs (htaken.trans (handleCompletion_quiesce hkind)), rfl,
        fun x hx => modPair_other _ hx _, (modPair_same _ p _).trans ?_⟩
      show ((s.pair p).tainted r.overrun).paused r.commitTime = _
      rw [Pair.paused, tainted_health]
      cases (s.pair p).health <;> rfl
    · refine ⟨_, takesRecord hq hs (htaken.trans (handleCompletion_resume hkind)), rfl,
        fun x hx => modPair_other _ hx _, (modPair_same _ p _).trans ?_⟩
      show ((s.pair p).tainted r.overrun).unpaused fresh = _
      rw [Pair.unpaused, tainted_health]
      cases (s.pair p).health <;> rfl
  · obtain ⟨c, hstart, hlimit⟩ := hdue
    have hlimit : decide ((s.pair p).desc.quiesceLimit ≤ elapsed s.clock c) = true := decide_eq_true hlimit
    have hreached : quiesceDue s p = true := by simp [quiesceDue, hstart, hquiesced, hlimit]
    refine ⟨overrunQuiesce p s, ?_, rfl, fun x hx => modPair_other _ hx _, posted_of_iar rfl, modPair_same _ p _⟩
    simp only [exec, execQuiesceOverrun, hreached, if_true]

end Sys2Proof.Machine
end

/-! ## The hand-over of a completion record to the echo list -/
section

namespace Sys2Proof.Machine

/-- The entry that watches the certain lines of a completion record (R109). -/
def watchOf (p : PairIx) (r : Record) (s : State) : EchoEntry :=
  { pair := p, stream := r.stream, slot := r.slot
    slotBase := slotBase (s.stream r.stream).desc r.slot
    written := r.certain, expected := r.signature, commitTime := r.commitTime
    readMask := 0, readSum := 0, status := .watching }

/-- The state with an entry appended to the echo list. -/
def watched (e : EchoEntry) (s : State) : State :=
  { s with echo := { s.echo with entries := s.echo.entries ++ [e] } }

def EchoCounters.addDropped (c : EchoCounters) : EchoCounters := { c with dropped := satInc c.dropped }

def EchoCounters.addUnwatched (c : EchoCounters) : EchoCounters := { c with unwatched := satInc c.unwatched }

/-- The state with a completion record handed to the ECH, should its pair expect a fetch (R59). -/
def handed (p : PairIx) (r : Record) (s : State) : State :=
  if (s.pair p).desc.expectFetch then appendEcho p r s else s

/-! ### The append, and the drop before it (R109, R110) -/

section
variable {s : State} {p : PairIx} {r : Record}

theorem handed_unexpected (h : (s.pair p).desc.expectFetch = false) : handed p r s = s := by
  rw [handed, h]; rfl

theorem handed_uncertain (h : (s.pair p).desc.expectFetch = true) (hc : r.certain = 0) :
    handed p r s = countEcho EchoCounters.addUnwatched s := by
  rw [handed, if_pos h, appendEcho, if_pos hc]
  rfl

theorem handed_watches (h : (s.pair p).desc.expectFetch = true) (hc : r.certain ≠ 0) :
    handed p r s = watched (watchOf p r s) (dropOldest s) := by
  rw [handed, if_pos h, appendEcho, if_neg hc]
  rfl

theorem dropOldest_unfilled (h : s.echo.entries.length < 64) : dropOldest s = s := by
  have hroom : s.echo.entries.length < Config.echoListSize := h
  unfold dropOldest
  split
  · rfl
  · rw [if_pos hroom]

theorem dropOldest_full {oldest : EchoEntry} {others : List EchoEntry} (hs : s.echo.entries = oldest :: others)
    (h : 64 ≤ s.echo.entries.length) :
    dropOldest s = post echoSource .echoDropped (retiredAs EchoCounters.addDropped oldest others s) := by
  have hfull : ¬ s.echo.entries.length < Config.echoListSize := Nat.not_lt.mpr h
  have hretired := countEcho_retire (before := []) EchoCounters.addDropped hs fun _ hf => absurd hf List.not_mem_nil
  unfold dropOldest
  split
  · next hnil => rw [hnil] at hs; cases hs
  · next e _ hcons =>
    obtain ⟨rfl, -⟩ := List.cons.inj (hcons.symm.trans hs)
    rw [if_neg hfull]
    exact congrArg (post echoSource .echoDropped) hretired

/-! ### The PRB after the hand-over (R119) -/

/-- A settled PRB finds nothing to take in an entry that watches. -/
theorem prbSettled_watched {e : EchoEntry} (h : prbSettled s) (he : e.status = .watching) : prbSettled (watched e s) := by
  rcases h with h | h | ⟨hsingle, hcurrent, hqueue⟩
  · exact .inl h
  · exact .inr (.inl h)
  · refine .inr (.inr ⟨hsingle, currentEntry_none.mpr fun f hf => ?_, hqueue⟩)
    rcases List.mem_append.mp hf with hf | hf
    · exact currentEntry_none.mp hcurrent f hf
    · rw [List.mem_singleton.mp hf, he]
      decide

theorem dropOldest_prbSettled (h : prbSettled s)
    (hrest : ∀ oldest others, s.echo.entries = oldest :: others → PrbRests oldest others s) : prbSettled (dropOldest s) := by
  rcases Nat.lt_or_ge s.echo.entries.length 64 with hroom | hfull
  · rwa [dropOldest_unfilled hroom]
  · match hs : s.echo.entries with
    | [] => rw [hs] at hfull; cases hfull
    | oldest :: others =>
      rw [dropOldest_full hs hfull]
      exact afterRetire_settled (before := []) hs h (hrest oldest others hs) rfl rfl

theorem handed_prbSettled (h : prbSettled s)
    (hrest : ∀ oldest others, s.echo.entries = oldest :: others → PrbRests oldest others s) : prbSettled (handed p r s) := by
  cases he : (s.pair p).desc.expectFetch with
  | false => rwa [handed_unexpected he]
  | true =>
    by_cases hc : r.certain = 0
    · rw [handed_uncertain he hc]
      exact h
    · rw [handed_watches he hc]
      exact prbSettled_watched (dropOldest_prbSettled h hrest) rfl

end

/-! ### The statement of the hand-over -/

theorem handed_handedToEcho (p : PairIx) (r : Record) (s : State) : HandedToEcho p r s (handed p r s) := by
  refine ⟨handed_unexpected, handed_uncertain, fun ⟨he, hc⟩ hroom => ?_, fun oldest others ⟨he, hc⟩ hfull hs => ?_⟩
  · rw [handed_watches he hc, dropOldest_unfilled hroom]
    rfl
  · rw [handed_watches he hc, dropOldest_full hs hfull]
    exact ⟨rfl, posted_of_iar rfl⟩

/-- What the match of a completion record gives, with the hand-over that follows it (R54 to R59). -/
theorem takesCompletion {s u : State} {p : PairIx} {r : Record} {rest : List Record} (hhead : HeadRecord s p r rest)
    (hs : prbSettled s) (hrole : (s.stream r.stream).desc.role = .completion) (hkind : r.kind = .work)
    (hrest : ∀ oldest others, s.echo.entries = oldest :: others → PrbRests oldest others s)
    (hmatch : matchCompletion p r (State.modPair p (Pair.tainted r.overrun) { s with commitQueue := rest }) = u)
    (hframe : u = { s with commitQueue := rest, pairs := u.pairs, iar := u.iar })
    (hdesc : (u.pair p).desc = (s.pair p).desc) :
    ∃ t, exec .corTakeRecord s = .next t ∧ HandedToEcho p r u t := by
  obtain ⟨hq, hp, ha⟩ := hhead
  have hecho : u.echo = s.echo := by rw [hframe]
  have htap : u.tap = s.tap := by rw [hframe]
  have hsettled : prbSettled (handed p r u) := by
    refine handed_prbSettled (prbSettled_congr hecho (by rw [htap]) hs) fun oldest others ho => ?_
    rw [hecho] at ho
    simpa only [PrbRests, hecho] using hrest oldest others ho
  have htaken : handleRecord r { s with commitQueue := rest } = handed p r u := by
    rw [handleRecord_completion (s := { s with commitQueue := rest }) hrole hp ha]
    simp only [handleCompletion, hkind, taintWindow_eq, hmatch, handed, hdesc]
    rfl
  exact ⟨_, exec_corTakeRecord hq htaken (prbTake_settled _ hsettled), handed_handedToEcho p r u⟩

section
variable {s : State} {p : PairIx} {r : Record} {rest : List Record} {f : Pair → Pair}

/-- A match that comes to one change of the pair. -/
theorem takesCompletion_changing (hhead : HeadRecord s p r rest) (hs : prbSettled s)
    (hrole : (s.stream r.stream).desc.role = .completion) (hkind : r.kind = .work)
    (hrest : ∀ oldest others, s.echo.entries = oldest :: others → PrbRests oldest others s)
    (hmatch : matchCompletion p r (State.modPair p (Pair.tainted r.overrun) { s with commitQueue := rest })
      = State.modPair p f { s with commitQueue := rest }) (hdesc : (f (s.pair p)).desc = (s.pair p).desc) :
    ∃ u t, exec .corTakeRecord s = .next t ∧ HandedToEcho p r u t
      ∧ u = { s with commitQueue := rest, pairs := u.pairs, iar := u.iar } ∧ OtherPairs p s u ∧ u.iar = s.iar
      ∧ u.pair p = f (s.pair p) := by
  obtain ⟨t, htaken, hhanded⟩ := takesCompletion hhead hs hrole hkind hrest hmatch rfl (by rw [modPair_same]; exact hdesc)
  exact ⟨_, t, htaken, hhanded, rfl, fun x hx => modPair_other _ hx _, rfl, modPair_same _ p _⟩

/-- A match that comes to one change of the pair and one posting. -/
theorem takesCompletion_posting {i : SourceIx} {c : Cause} (hhead : HeadRecord s p r rest) (hs : prbSettled s)
    (hrole : (s.stream r.stream).desc.role = .completion) (hkind : r.kind = .work)
    (hrest : ∀ oldest others, s.echo.entries = oldest :: others → PrbRests oldest others s)
    (hmatch : matchCompletion p r (State.modPair p (Pair.tainted r.overrun) { s with commitQueue := rest })
      = post i c (State.modPair p f { s with commitQueue := rest })) (hdesc : (f (s.pair p)).desc = (s.pair p).desc) :
    ∃ u t, exec .corTakeRecord s = .next t ∧ HandedToEcho p r u t
      ∧ u = { s with commitQueue := rest, pairs := u.pairs, iar := u.iar } ∧ OtherPairs p s u ∧ Posted i c s u
      ∧ u.pair p = f (s.pair p) := by
  obtain ⟨t, htaken, hhanded⟩ := takesCompletion hhead hs hrole hkind hrest hmatch rfl
    (by rw [post_pair, modPair_same]; exact hdesc)
  exact ⟨_, t, htaken, hhanded, rfl, fun x hx => modPair_other _ hx _, posted_of_iar rfl, modPair_same _ p _⟩

end

end Sys2Proof.Machine
end

/-! ## A completion without an entry, and one that re-arms its entry -/
section

namespace Sys2Proof.Machine

/-! ### A window tainted and then counted in (R60, R89, R90) -/

/-- The window of a pair after a record's taint and an event, which an enabled pair alone takes. -/
def Pair.windowAfter (overrun : Bool) (f : EvalWindow → EvalWindow) (q : Pair) : Option EvalWindow :=
  if q.health.enabled then
    q.hev.window.map fun w => f (if w.held then w else { w with taint := w.taint || overrun })
  else q.hev.window

theorem event_of_tainted {q x : Pair} {overrun : Bool} {f : EvalWindow → EvalWindow} (hhealth : x.health = q.health)
    (hhev : x.hev = (q.tainted overrun).hev) :
    x.event f = { x with hev := { q.hev with window := q.windowAfter overrun f } } := by
  cases x
  cases hhealth
  cases hhev
  by_cases hen : q.health.enabled = true
  · simp only [Pair.event, Pair.windowAfter, Pair.modWindow, hen, if_true, Option.map_map]; rfl
  · simp only [Pair.event, Pair.windowAfter, hen]; rfl

theorem countPaired_tainted (w : EvalWindow) (overrun : Bool) :
    EvalWindow.countPaired (if w.held then w else { w with taint := w.taint || overrun })
      = if w.held then w else { w with taint := w.taint || overrun, paired := satInc w.paired } := by
  cases hw : w.held <;> simp [EvalWindow.countPaired, hw]

theorem countAdverse_tainted (w : EvalWindow) (overrun : Bool) :
    EvalWindow.countAdverse (if w.held then w else { w with taint := w.taint || overrun })
      = if w.held then w else { w with taint := w.taint || overrun, adverse := satInc w.adverse } := by
  cases hw : w.held <;> simp [EvalWindow.countAdverse, hw]

/-! ### A completion that finds no entry (R58) -/

/-- A pair that an orphan has reached. -/
def Pair.orphaned (q : Pair) : Pair :=
  Pair.event EvalWindow.countAdverse { q with counters := { q.counters with orphans := q.counters.orphans + 1 } }

theorem orphan_eq (p : PairIx) (s : State) : orphan p s = post (pairSource p) .orphan (s.modPair p Pair.orphaned) := by
  rw [orphan, adverseEvent_eq, countPair, post_modPair, modPair_modPair]
  rfl

theorem matchCompletion_orphan {s : State} {p : PairIx} {r : Record} (ho : ∀ e ∈ (s.pair p).openList, e.tag ≠ r.tag)
    (hl : ∀ e ∈ (s.pair p).lateList, e.entry.tag ≠ r.tag) : matchCompletion p r s = orphan p s := by
  have hopen : (s.pair p).openWith r.tag = none := by simpa [Pair.openWith] using ho
  have hlate : (s.pair p).lateWith r.tag = none := by simpa [Pair.lateWith] using hl
  rw [matchCompletion, hopen, hlate]

/-- Settles O39. -/
theorem corFindsAnOrphan : Obligations.CorFindsAnOrphan := by
  intro p r rest s hhead hs hrole hkind hrest ho hl
  have hmatch : matchCompletion p r (State.modPair p (Pair.tainted r.overrun) { s with commitQueue := rest })
      = post (pairSource p) .orphan
        (State.modPair p (fun q => (q.tainted r.overrun).orphaned) { s with commitQueue := rest }) := by
    rw [matchCompletion_orphan (by rw [modPair_same]; exact ho) (by rw [modPair_same]; exact hl), orphan_eq,
      modPair_modPair]
  have hpair : ((s.pair p).tainted r.overrun).orphaned = _ := event_of_tainted (q := s.pair p) rfl rfl
  obtain ⟨u, t, htaken, hhanded, hframe, hothers, hposted, hu⟩ :=
    takesCompletion_posting hhead hs hrole hkind hrest hmatch (by rw [hpair]; rfl)
  refine ⟨u, t, htaken, hhanded, hframe, hothers, hposted, ?_⟩
  rw [hu, hpair, Pair.windowAfter]
  simp only [countAdverse_tainted]
  rfl

/-! ### A tag that one entry of a pair holds (R49) -/

theorem eraseP_first {α : Type} {t : α → Bool} {before : List α} {e : α} (after : List α)
    (hb : ∀ f ∈ before, t f = false) (he : t e = true) : (before ++ e :: after).eraseP t = before ++ after := by
  rw [List.eraseP_append_right _ fun f hf => by simp [hb f hf], List.eraseP_cons_of_pos he]

theorem key_apart {α κ : Type} {f : α → κ} {before after : List α} {e : α} (h : ((before ++ e :: after).map f).Nodup) :
    ∀ x ∈ before ++ after, f x ≠ f e := by
  rw [(List.perm_middle.map f).nodup_iff, List.map_cons, List.nodup_cons] at h
  exact fun x hx hk => h.1 (hk ▸ List.mem_map_of_mem hx)

section
variable {q : Pair} {tag : BitVec 32}

theorem openTag_apart {before after : List Entry} {e : Entry} (hd : q.tags.Nodup)
    (hopen : q.openList = before ++ e :: after) (htag : e.tag = tag) :
    (∀ f ∈ before ++ after, f.tag ≠ tag) ∧ (∀ f ∈ q.lateList, f.entry.tag ≠ tag)
      ∧ q.openWith tag = some e ∧ removeOpen tag q.openList = before ++ after := by
  subst htag
  obtain ⟨hnodup, -, hdisjoint⟩ := List.nodup_append.mp hd
  have hapart := key_apart (hopen ▸ hnodup)
  have hbefore : ∀ f ∈ before, decide (f.tag = e.tag) = false := fun f hf =>
    decide_eq_false (hapart f (List.mem_append_left _ hf))
  have hmem : e ∈ q.openList := by rw [hopen]; exact List.mem_append_right _ List.mem_cons_self
  refine ⟨hapart, fun f hf hk => ?_, ?_, ?_⟩
  · exact hdisjoint e.tag (List.mem_map_of_mem hmem) f.entry.tag (List.mem_map_of_mem (f := fun e => e.entry.tag) hf) hk.symm
  · rw [Pair.openWith, hopen]
    exact find?_first after hbefore (decide_eq_true rfl)
  · rw [removeOpen, hopen]
    exact eraseP_first after hbefore (decide_eq_true rfl)

theorem lateTag_apart {before after : List LateEntry} {e : LateEntry} (hd : q.tags.Nodup)
    (hlate : q.lateList = before ++ e :: after) (htag : e.entry.tag = tag) :
    (∀ f ∈ q.openList, f.tag ≠ tag) ∧ (∀ f ∈ before ++ after, f.entry.tag ≠ tag) ∧ q.openWith tag = none
      ∧ q.lateWith tag = some e ∧ removeLate tag q.lateList = before ++ after := by
  subst htag
  obtain ⟨-, hnodup, hdisjoint⟩ := List.nodup_append.mp hd
  have hapart := key_apart (hlate ▸ hnodup)
  have hbefore : ∀ f ∈ before, decide (f.entry.tag = e.entry.tag) = false := fun f hf =>
    decide_eq_false (hapart f (List.mem_append_left _ hf))
  have hmem : e ∈ q.lateList := by rw [hlate]; exact List.mem_append_right _ List.mem_cons_self
  have hopen : ∀ f ∈ q.openList, f.tag ≠ e.entry.tag := fun f hf =>
    hdisjoint f.tag (List.mem_map_of_mem hf) e.entry.tag (List.mem_map_of_mem (f := fun e => e.entry.tag) hmem)
  refine ⟨hopen, hapart, ?_, ?_, ?_⟩
  · simpa [Pair.openWith] using hopen
  · rw [Pair.lateWith, hlate]
    exact find?_first after hbefore (decide_eq_true rfl)
  · rw [removeLate, hlate]
    exact eraseP_first after hbefore (decide_eq_true rfl)

end

/-! ### A completion with HOLD (R55, R57) -/

section
variable {s : State} {p : PairIx} {r : Record}

theorem matchCompletion_open {e : Entry} (h : (s.pair p).openWith r.tag = some e) :
    matchCompletion p r s = if r.hold then holdOpen p r e s else completeOpen p r e s := by
  rw [matchCompletion, h]

theorem matchCompletion_late {e : LateEntry} (ho : (s.pair p).openWith r.tag = none)
    (h : (s.pair p).lateWith r.tag = some e) :
    matchCompletion p r s = if r.hold then holdLate p r e s else completeLate p r e s := by
  rw [matchCompletion, ho, h]

/-- No entry of a pair is due (R62, R63). -/
def Pair.AllWait (now : Clock) (q : Pair) : Prop :=
  (∀ f ∈ q.openList, f.age now < q.timeout) ∧ ∀ f ∈ q.lateList, f.time now < q.timeout

theorem examineOpen_waits (h : (s.pair p).AllWait s.clock) : examineOpen p s = s :=
  examineOpen_rests fun f hf => h.1 f (List.mem_of_mem_head? hf)

theorem examineLate_waits (h : (s.pair p).AllWait s.clock) : examineLate p s = settleDraining p s :=
  examineLate_rests fun f hf => h.2 f (List.mem_of_mem_head? hf)

theorem holdOpen_rearms {e : Entry} {q : Pair} (hlimit : e.holdCount < (s.pair p).desc.holdLimit)
    (hq : Pair.event EvalWindow.countPaired ((s.pair p).openRearmed r.tag (e.rearmed r.commitTime)) = q)
    (hwait : q.AllWait s.clock) : holdOpen p r e s = s.modPair p fun _ => q := by
  have hmoved : pairedEvent p (s.modPair p fun q =>
      { q with openList := removeOpen r.tag q.openList ++ [e.rearmed r.commitTime] }) = s.modPair p fun _ => q := by
    rw [pairedEvent_eq, modPair_modPair]
    exact modPair_congr hq
  rw [holdOpen, if_pos hlimit]
  dsimp only
  rw [hmoved, examineOpen_waits (by rw [modPair_same]; exact hwait), ite_self]

theorem holdLate_rearms {e : LateEntry} {q : Pair} (hlimit : e.entry.holdCount < (s.pair p).desc.holdLimit)
    (hq : Pair.event EvalWindow.countPaired ((s.pair p).lateRearmed r.tag (e.entry.rearmed r.commitTime)) = q)
    (hwait : q.AllWait s.clock) (hopen : q.openList ≠ []) : holdLate p r e s = s.modPair p fun _ => q := by
  have hmoved : pairedEvent p (s.modPair p fun q =>
      { q with lateList := removeLate r.tag q.lateList, openList := q.openList ++ [e.entry.rearmed r.commitTime] })
        = s.modPair p fun _ => q := by
    rw [pairedEvent_eq, modPair_modPair]
    exact modPair_congr hq
  have hstays : ¬ (q.health = .draining ∧ q.openList = [] ∧ q.lateList = []) := fun ⟨_, hnil, _⟩ => hopen hnil
  have hwaits : ((s.modPair p fun _ => q).pair p).AllWait s.clock := by rw [modPair_same]; exact hwait
  rw [holdLate, if_pos hlimit]
  dsimp only
  rw [hmoved, examineOpen_waits hwaits, ite_self, examineLate_waits hwaits, settleDraining, modPair_same, if_neg hstays,
    ite_self]

theorem holdOpen_refused {e : Entry} (h : ¬ e.holdCount < (s.pair p).desc.holdLimit) :
    holdOpen p r e s = post (pairSource p) .holdLimit s := if_neg h

theorem holdLate_refused {e : LateEntry} (h : ¬ e.entry.holdCount < (s.pair p).desc.holdLimit) :
    holdLate p r e s = post (pairSource p) .holdLimit s := if_neg h

end

section
variable {q : Pair} {tag : BitVec 32} {overrun : Bool}

theorem openRearmed_counted (e : Entry) :
    Pair.event EvalWindow.countPaired ((q.tainted overrun).openRearmed tag e) = { q with
      openList := removeOpen tag q.openList ++ [e]
      hev := { q.hev with window := q.windowAfter overrun EvalWindow.countPaired } } :=
  event_of_tainted (q := q) rfl rfl

theorem lateRearmed_counted (e : Entry) :
    Pair.event EvalWindow.countPaired ((q.tainted overrun).lateRearmed tag e) = { q with
      lateList := removeLate tag q.lateList
      openList := q.openList ++ [e]
      hev := { q.hev with window := q.windowAfter overrun EvalWindow.countPaired } } :=
  event_of_tainted (q := q) rfl rfl

end

theorem mem_of_mem_around {α : Type} {l before after : List α} {e f : α} (hl : l = before ++ e :: after)
    (hf : f ∈ before ++ after) : f ∈ l := by
  rw [hl]
  exact ((List.sublist_cons_self e after).append_left before).mem hf

theorem forall_mem_concat {α : Type} {P : α → Prop} {l : List α} {a : α} (hl : ∀ x ∈ l, P x) (ha : P a) :
    ∀ x ∈ l ++ [a], P x :=
  List.forall_mem_append.mpr ⟨hl, List.forall_mem_singleton.mpr ha⟩

/-- Settles O38. -/
theorem corHoldsARequest : Obligations.CorHoldsARequest := by
  intro p r rest s hhead hs hdistinct hrole hkind hhold hrest hopenWait hlateWait harrival q tainted paired turnedAway
  have hpaired : q.windowAfter r.overrun EvalWindow.countPaired = paired := by
    simp only [Pair.windowAfter, countPaired_tainted]
    rfl
  set s1 : State := State.modPair p (Pair.tainted r.overrun) { s with commitQueue := rest }
  have hpair : s1.pair p = q.tainted r.overrun := modPair_same _ p _
  have hdesc : (s1.pair p).desc = q.desc := by rw [hpair]; rfl
  have hrefused (h : matchCompletion p r s1 = post (pairSource p) .holdLimit s1) :=
    takesCompletion_posting hhead hs hrole hkind hrest h rfl
  have hrearmed (x : Pair) (hx : x.desc = q.desc) (h : matchCompletion p r s1 = s1.modPair p fun _ => x) :=
    takesCompletion_changing (f := fun _ => x) hhead hs hrole hkind hrest (h.trans (modPair_modPair _ p _ _)) hx
  refine ⟨fun before e after hopen htag => ?_, fun before e after hlate htag => ?_⟩
  · obtain ⟨hapart, hlateApart, hwith, hremove⟩ := openTag_apart (hdistinct p) hopen htag
    have hmatch : matchCompletion p r s1 = holdOpen p r e s1 := by
      rw [matchCompletion_open (by rw [hpair]; exact hwith), if_pos hhold]
    have hkept : ∀ f ∈ before ++ after, f.age s.clock < q.timeout := fun f hf =>
      hopenWait f (mem_of_mem_around hopen hf) (hapart f hf)
    split
    · next hlimit =>
      have hcounted := openRearmed_counted (q := q) (tag := r.tag) (overrun := r.overrun) (e.rearmed r.commitTime)
      rw [hremove, hpaired] at hcounted
      exact hrearmed _ rfl (hmatch.trans (holdOpen_rearms (hdesc ▸ hlimit) (by rw [hpair]; exact hcounted)
        ⟨forall_mem_concat hkept harrival, fun f hf => hlateWait f hf (hlateApart f hf)⟩))
    · next hlimit => exact hrefused (hmatch.trans (holdOpen_refused (hdesc ▸ hlimit)))
  · obtain ⟨hopenApart, hapart, hnone, hwith, hremove⟩ := lateTag_apart (hdistinct p) hlate htag
    have hmatch : matchCompletion p r s1 = holdLate p r e s1 := by
      rw [matchCompletion_late (by rw [hpair]; exact hnone) (by rw [hpair]; exact hwith), if_pos hhold]
    have hkept : ∀ f ∈ before ++ after, f.time s.clock < q.timeout := fun f hf =>
      hlateWait f (mem_of_mem_around hlate hf) (hapart f hf)
    split
    · next hlimit =>
      have hcounted := lateRearmed_counted (q := q) (tag := r.tag) (overrun := r.overrun) (e.entry.rearmed r.commitTime)
      rw [hremove, hpaired] at hcounted
      exact hrearmed _ rfl (hmatch.trans (holdLate_rearms (hdesc ▸ hlimit) (by rw [hpair]; exact hcounted)
        ⟨forall_mem_concat (fun f hf => hopenWait f hf (hopenApart f hf)) harrival, hkept⟩ (by simp)))
    · next hlimit => exact hrefused (hmatch.trans (holdLate_refused (hdesc ▸ hlimit)))

end Sys2Proof.Machine
end

/-! ## A completion that frees its entry -/
section

namespace Sys2Proof.Machine

/-! ### What a judgement of entries leaves of tags, counters and postings -/

/-- What the examination of a pair's heads leaves: no tag is new to the pair, of the counters `lost` alone changes, and no
posting is withdrawn. -/
structure Judged (p : PairIx) (s t : State) : Prop where
  tags : (t.pair p).tags ⊆ (s.pair p).tags
  counters : (t.pair p).counters = { (s.pair p).counters with lost := (t.pair p).counters.lost }
  pending : ∀ i, (s.source i).pending = true → (t.source i).pending = true
  causes : ∀ i k, (s.source i).causes.getLsbD k = true → (t.source i).causes.getLsbD k = true

namespace Judged

theorem refl (p : PairIx) (s : State) : Judged p s s := ⟨List.Subset.refl _, rfl, fun _ h => h, fun _ _ h => h⟩

theorem trans {p : PairIx} {s t u : State} (h : Judged p s t) (k : Judged p t u) : Judged p s u where
  tags := List.Subset.trans k.tags h.tags
  counters := by rw [k.counters, h.counters]
  pending i := k.pending i ∘ h.pending i
  causes i b := k.causes i b ∘ h.causes i b

/-- The operation done last first, as a meaning writes it. -/
theorem comp {p : PairIx} {s t u : State} (k : Judged p t u) (h : Judged p s t) : Judged p s u := h.trans k

theorem ite {p : PairIx} {s t u : State} {c : Prop} [Decidable c] (h : Judged p s t) (k : Judged p s u) :
    Judged p s (if c then t else u) := by
  split
  · exact h
  · exact k

theorem modPair {p : PairIx} {s : State} {f : Pair → Pair} (htags : (f (s.pair p)).tags ⊆ (s.pair p).tags)
    (hcounters : (f (s.pair p)).counters = { (s.pair p).counters with lost := (f (s.pair p)).counters.lost }) :
    Judged p s (s.modPair p f) where
  tags := by rwa [modPair_same]
  counters := by rwa [modPair_same]
  pending _ h := h
  causes _ _ h := h

/-- A change of what is neither a list nor a counter. -/
theorem modRest {p : PairIx} {s : State} {f : Pair → Pair} (htags : (f (s.pair p)).tags = (s.pair p).tags)
    (hcounters : (f (s.pair p)).counters = (s.pair p).counters) : Judged p s (s.modPair p f) :=
  modPair (by rw [htags]; exact List.Subset.refl _) (by rw [hcounters])

theorem post (p : PairIx) (i : SourceIx) (c : Cause) (s : State) : Judged p s (post i c s) := by
  obtain ⟨⟨hcauses, -, -, -, hpending, -⟩, hothers, -⟩ := post_posted s i c
  refine ⟨List.Subset.refl _, rfl, fun j h => ?_, fun j k h => ?_⟩
  · by_cases hj : j = i
    · exact hj ▸ hpending
    · rwa [hothers j hj]
  · by_cases hj : j = i
    · subst hj
      rw [hcauses, BitVec.getLsbD_or, h, Bool.true_or]
    · rwa [hothers j hj]

theorem foldl {γ : Type} {p : PairIx} {f : State → γ → State} (hf : ∀ t a, Judged p t (f t a)) (l : List γ) (s : State) :
    Judged p s (l.foldl f s) :=
  foldl_keeps (P := Judged p s) (fun t a h => h.trans (hf t a)) l (refl p s)

end Judged

section
variable (p : PairIx) (s : State)

theorem expiryEvent_judged : Judged p s (expiryEvent p s) := .ite (.modRest rfl rfl) (.refl p s)

theorem expiryFinding_judged (e : Entry) : Judged p s (expiryFinding p s e) :=
  (expiryEvent_judged p _).comp (.ite (.refl p s) (.post p _ _ s))

theorem lossFinding_judged (e : LateEntry) : Judged p s (lossFinding p s e) :=
  (expiryEvent_judged p _).comp (.post p _ _ s)

theorem settleDraining_judged : Judged p s (settleDraining p s) := .ite (.modRest rfl rfl) (.refl p s)

theorem examineOpen_judged : Judged p s (examineOpen p s) := by
  cases ha : (s.pair p).health.active with
  | false => rw [examineOpen_inactive ha]; exact .refl p s
  | true =>
    rw [examineOpen_active ha]
    exact .comp (.foldl (expiryFinding_judged p) _ _) (.modPair (headsExpired_tags _ _).subset rfl)

theorem examineLate_judged : Judged p s (examineLate p s) := by
  cases ha : (s.pair p).health.active with
  | false => rw [examineLate_inactive ha]; exact .refl p s
  | true =>
    rw [examineLate_active ha]
    exact (settleDraining_judged p _).comp (.comp (.foldl (lossFinding_judged p) _ _)
      (.modPair (((List.dropWhile_sublist _).map _).append_left _).subset rfl))

theorem recomputeT_judged : Judged p s (recomputeT p s) :=
  .ite (.refl p s) ((examineLate_judged p _).comp ((examineOpen_judged p _).comp (.modRest rfl rfl)))

end

/-! ### A sample taken (R76, R80, R83) -/

/-- A pair with a sample in its estimator. -/
def Pair.sampled (l : Nat) (q : Pair) : Pair := { q with est := q.est.update q.desc (min l Config.sampleCeiling) }

/-- What a sample taken for a pair, with a judgement of its entries before it, leaves and changes. -/
structure Sampled (p : PairIx) (l : Nat) (s t : State) : Prop extends Judged p s t where
  frame : PairsAndSources s t
  others : OtherPairs p s t
  desc : (t.pair p).desc = (s.pair p).desc
  est : (t.pair p).est = ((s.pair p).sampled l).est
  timeout : (t.pair p).timeout = timeoutOf (s.pair p).desc ((s.pair p).sampled l).est s.vrd.factor

theorem takeSample_sampled {p : PairIx} {s t : State} (l : Nat) (he : Examined p s t) (hj : Judged p s t) :
    Sampled p l s (takeSample p l t) := by
  obtain ⟨hframe, hothers, hdesc, hest, htimeout⟩ := recomputeT_spec (t.modPair p (Pair.sampled l)) p
  have hvrd : t.vrd = s.vrd := by rw [he.frame]
  have hsame : ((t.pair p).sampled l).est = ((s.pair p).sampled l).est := by simp only [Pair.sampled, he.est, he.desc]
  rw [modPair_same] at hdesc hest htimeout
  refine ⟨(recomputeT_judged p _).comp ((Judged.modRest rfl rfl).comp hj),
    he.frame.trans ((PairsAndSources.modPair t p _).trans hframe), fun x hx => ?_, hdesc.trans he.desc,
    hest.trans hsame, htimeout.trans ?_⟩
  · exact (hothers x hx).trans ((modPair_other t hx _).trans (he.others x hx))
  · rw [hsame]
    show timeoutOf (t.pair p).desc _ t.vrd.factor = _
    rw [he.desc, hvrd]

/-- A sample that leaves T as it is changes the estimator alone. -/
theorem takeSample_same {p : PairIx} {l : Nat} {s : State}
    (h : timeoutOf (s.pair p).desc ((s.pair p).sampled l).est s.vrd.factor = (s.pair p).timeout) :
    takeSample p l s = s.modPair p (Pair.sampled l) := by
  refine if_pos ?_
  rw [modPair_same]
  exact h

/-! ### An entry freed (R47, R54, R56) -/

/-- A pair whose open entry of a tag a completion has freed. -/
def Pair.openFreed (tag : BitVec 32) (q : Pair) : Pair := (Pair.event EvalWindow.countPaired (q.openCompleted tag)).drained

/-- A pair whose late entry of a tag a completion has freed. -/
def Pair.lateFreed (tag : BitVec 32) (q : Pair) : Pair := (Pair.event EvalWindow.countPaired (q.lateCompleted tag)).drained

/-- The health of a pair left with the entries of two lists (R47). -/
def Pair.healthLeft (q : Pair) (l : List Entry) (m : List LateEntry) : Health :=
  if q.health = .draining ∧ l = [] ∧ m = [] then .disabled else q.health

section
variable {q : Pair} {tag : BitVec 32} {overrun : Bool}

theorem openCompleted_counted : Pair.event EvalWindow.countPaired ((q.tainted overrun).openCompleted tag) = { q with
    openList := removeOpen tag q.openList
    counters := { q.counters with completed := q.counters.completed + 1 }
    hev := { q.hev with window := q.windowAfter overrun EvalWindow.countPaired } } :=
  event_of_tainted (q := q) rfl rfl

theorem lateCompleted_counted : Pair.event EvalWindow.countPaired ((q.tainted overrun).lateCompleted tag) = { q with
    lateList := removeLate tag q.lateList
    counters := { q.counters with late := q.counters.late + 1 }
    hev := { q.hev with window := q.windowAfter overrun EvalWindow.countPaired } } :=
  event_of_tainted (q := q) rfl rfl

theorem openFreed_tainted : (q.tainted overrun).openFreed tag = { q with
    openList := removeOpen tag q.openList, health := q.healthLeft (removeOpen tag q.openList) q.lateList
    counters := { q.counters with completed := q.counters.completed + 1 }
    hev := { q.hev with window := q.windowAfter overrun EvalWindow.countPaired } } := by
  rw [Pair.openFreed, openCompleted_counted, drained_eq]
  rfl

theorem lateFreed_tainted : (q.tainted overrun).lateFreed tag = { q with
    lateList := removeLate tag q.lateList, health := q.healthLeft q.openList (removeLate tag q.lateList)
    counters := { q.counters with late := q.counters.late + 1 }
    hev := { q.hev with window := q.windowAfter overrun EvalWindow.countPaired } } := by
  rw [Pair.lateFreed, lateCompleted_counted, drained_eq]
  rfl

theorem drained_drained : q.drained.drained = q.drained := by
  unfold Pair.drained
  split
  · exact if_neg fun h => by cases h.1
  · rfl

end

section
variable {s : State} {p : PairIx} {r : Record}

theorem completeOpen_eq (e : Entry) : completeOpen p r e s = takeSample p (elapsed r.commitTime e.arrival)
    (if openHeadIs r.tag (s.pair p).openList then examineOpen p (s.modPair p (Pair.openFreed r.tag))
      else s.modPair p (Pair.openFreed r.tag)) := by
  rw [completeOpen, pairedEvent_eq, settleDraining_eq, modPair_modPair, modPair_modPair]
  rfl

theorem completeLate_eq (e : LateEntry) : completeLate p r e s
    = takeSample p (min (elapsed r.commitTime e.entry.arrival) (s.pair p).desc.tceil)
      (if lateHeadIs r.tag (s.pair p).lateList then
          examineLate p (post (pairSource p) .late (s.modPair p (Pair.lateFreed r.tag)))
        else post (pairSource p) .late (s.modPair p (Pair.lateFreed r.tag))) := by
  rw [completeLate, pairedEvent_eq, settleDraining_eq, post_modPair, post_modPair, modPair_modPair, modPair_modPair]
  rfl

theorem completeOpen_sampled (e : Entry) :
    Sampled p (elapsed r.commitTime e.arrival) (s.modPair p (Pair.openFreed r.tag)) (completeOpen p r e s) := by
  rw [completeOpen_eq]
  split
  · exact takeSample_sampled _ (examineOpen_examined _ p) (examineOpen_judged p _)
  · exact takeSample_sampled _ (.refl _ p) (.refl p _)

theorem completeLate_sampled {e : LateEntry} {l : Nat}
    (hl : min (elapsed r.commitTime e.entry.arrival) (s.pair p).desc.tceil = l) :
    Sampled p l (post (pairSource p) .late (s.modPair p (Pair.lateFreed r.tag))) (completeLate p r e s) := by
  rw [completeLate_eq, hl]
  split
  · exact takeSample_sampled _ (examineLate_examined _ p) (examineLate_judged p _)
  · exact takeSample_sampled _ (.refl _ p) (.refl p _)

/-- With the heads at rest and T as it was, an open entry's completion is one change of its pair. -/
theorem completeOpen_rests {e : Entry} {x : Pair} (hx : (s.pair p).openFreed r.tag = x)
    (hrest : ∀ f ∈ x.openList, f.age s.clock < x.timeout)
    (htimeout : timeoutOf x.desc (x.sampled (elapsed r.commitTime e.arrival)).est s.vrd.factor = x.timeout) :
    completeOpen p r e s = s.modPair p fun _ => x.sampled (elapsed r.commitTime e.arrival) := by
  have hexamined : examineOpen p (s.modPair p (Pair.openFreed r.tag)) = s.modPair p (Pair.openFreed r.tag) := by
    refine examineOpen_rests fun f hf => ?_
    rw [modPair_same, hx] at hf ⊢
    exact hrest f (List.mem_of_mem_head? hf)
  rw [completeOpen_eq, hexamined, ite_self, takeSample_same (by rw [modPair_same, hx]; exact htimeout), modPair_modPair]
  exact modPair_congr (congrArg (Pair.sampled _) hx)

/-- With the heads at rest and T as it was, a late entry's completion is one change of its pair and one posting. -/
theorem completeLate_rests {e : LateEntry} {x : Pair} {l : Nat} (hx : (s.pair p).lateFreed r.tag = x)
    (hl : min (elapsed r.commitTime e.entry.arrival) (s.pair p).desc.tceil = l)
    (hrest : ∀ f ∈ x.lateList, f.time s.clock < x.timeout)
    (htimeout : timeoutOf x.desc (x.sampled l).est s.vrd.factor = x.timeout) :
    completeLate p r e s = post (pairSource p) .late (s.modPair p fun _ => x.sampled l) := by
  set v := post (pairSource p) .late (s.modPair p (Pair.lateFreed r.tag)) with hv
  have hpair : v.pair p = x := (modPair_same s p _).trans hx
  have hexamined : examineLate p v = v := by
    rw [examineLate_rests fun f hf => ?_, settleDraining_eq]
    · refine modPair_unchanged v p ?_
      rw [hpair, ← hx, Pair.lateFreed, drained_drained]
    · rw [hpair] at hf ⊢
      exact hrest f (List.mem_of_mem_head? hf)
  rw [completeLate_eq, ← hv, hexamined, ite_self, hl, takeSample_same (by rw [hpair]; exact htimeout), hv, post_modPair,
    modPair_modPair]
  exact congrArg (post (pairSource p) .late) (modPair_congr (congrArg (Pair.sampled l) hx))

end

/-- The tags of a list but one, in their order (R49). -/
theorem filter_around {α κ : Type} [DecidableEq κ] {f : α → κ} {k : κ} {before after l : List α} {e : α}
    (hl : l = before ++ e :: after) (he : f e = k) (hapart : ∀ x ∈ before ++ after, f x ≠ k) :
    (l.filter fun x => decide (f x ≠ k)) = before ++ after := by
  rw [hl, List.filter_append, List.filter_cons_of_neg (by simpa using he), ← List.filter_append]
  exact List.filter_eq_self.mpr fun x hx => decide_eq_true (hapart x hx)

theorem removeOpen_eq_filter {q : Pair} {tag : BitVec 32} {e : Entry} (hd : q.tags.Nodup) (he : e ∈ q.openList)
    (htag : e.tag = tag) : q.openWith tag = some e ∧ (∀ f ∈ q.lateList, f.entry.tag ≠ tag)
      ∧ removeOpen tag q.openList = q.openList.filter fun f => decide (f.tag ≠ tag) := by
  obtain ⟨before, after, hopen⟩ := List.append_of_mem he
  obtain ⟨hapart, hlate, hwith, hremove⟩ := openTag_apart hd hopen htag
  exact ⟨hwith, hlate, hremove.trans (filter_around hopen htag hapart).symm⟩

theorem removeLate_eq_filter {q : Pair} {tag : BitVec 32} {e : LateEntry} (hd : q.tags.Nodup) (he : e ∈ q.lateList)
    (htag : e.entry.tag = tag) : q.openWith tag = none ∧ q.lateWith tag = some e ∧ (∀ f ∈ q.openList, f.tag ≠ tag)
      ∧ removeLate tag q.lateList = q.lateList.filter fun f => decide (f.entry.tag ≠ tag) := by
  obtain ⟨before, after, hlate⟩ := List.append_of_mem he
  obtain ⟨hopen, hapart, hnone, hwith, hremove⟩ := lateTag_apart hd hlate htag
  exact ⟨hnone, hwith, hopen, hremove.trans (filter_around (f := fun e => e.entry.tag) hlate htag hapart).symm⟩

/-- A tag that no entry holds is held by none after a judgement. -/
theorem Judged.absent {p : PairIx} {s t : State} {tag : BitVec 32} (h : Judged p s t)
    (hopen : ∀ f ∈ (s.pair p).openList, f.tag ≠ tag) (hlate : ∀ f ∈ (s.pair p).lateList, f.entry.tag ≠ tag) :
    (∀ f ∈ (t.pair p).openList, f.tag ≠ tag) ∧ ∀ f ∈ (t.pair p).lateList, f.entry.tag ≠ tag := by
  have habsent : tag ∉ (s.pair p).tags := by simpa [Pair.tags] using ⟨hopen, hlate⟩
  have hgone : tag ∉ (t.pair p).tags := fun h' => habsent (h.tags h')
  simpa [Pair.tags] using hgone

/-- A completion that frees an entry, for what comes before the sample in `v` (R54, R56, R59). -/
theorem takesCompletion_sampled {s v u : State} {p : PairIx} {r : Record} {rest : List Record} {l : Nat}
    (hhead : HeadRecord s p r rest) (hs : prbSettled s) (hrole : (s.stream r.stream).desc.role = .completion)
    (hkind : r.kind = .work) (hrest : ∀ oldest others, s.echo.entries = oldest :: others → PrbRests oldest others s)
    (hmatch : matchCompletion p r (State.modPair p (Pair.tainted r.overrun) { s with commitQueue := rest }) = u)
    (hframe : PairsAndSources { s with commitQueue := rest } v) (hothers : OtherPairs p s v)
    (hdesc : (v.pair p).desc = (s.pair p).desc) (hest : (v.pair p).est = (s.pair p).est) (hsampled : Sampled p l v u) :
    let est := (s.pair p).est.update (s.pair p).desc (min l 1048575)
    ∃ t, exec .corTakeRecord s = .next t ∧ HandedToEcho p r u t
      ∧ u = { s with commitQueue := rest, pairs := u.pairs, iar := u.iar } ∧ OtherPairs p s u
      ∧ (u.pair p).desc = (s.pair p).desc ∧ (u.pair p).est = est
      ∧ (u.pair p).timeout = timeoutOf (s.pair p).desc est s.vrd.factor := by
  intro est
  have hupdated : ((v.pair p).sampled l).est = est := by rw [Pair.sampled, hdesc, hest]; rfl
  have hvrd : v.vrd = s.vrd := by rw [hframe]
  have hu : u = { s with commitQueue := rest, pairs := u.pairs, iar := u.iar } := by
    have h := hframe.trans hsampled.frame
    unfold PairsAndSources at h
    rw [h]
  obtain ⟨t, htaken, hhanded⟩ := takesCompletion hhead hs hrole hkind hrest hmatch hu (hsampled.desc.trans hdesc)
  refine ⟨t, htaken, hhanded, hu, fun x hx => (hsampled.others x hx).trans (hothers x hx), hsampled.desc.trans hdesc,
    hsampled.est.trans hupdated, hsampled.timeout.trans ?_⟩
  rw [hupdated, hdesc, hvrd]

/-- Settles O37. -/
theorem corCompletesARequest : Obligations.CorCompletesARequest := by
  intro p r rest s hhead hs hdistinct hrole hkind hhold hrest q window counted left
  have hwindow : q.windowAfter r.overrun EvalWindow.countPaired = window := by
    simp only [Pair.windowAfter, countPaired_tainted]
    rfl
  set s0 : State := { s with commitQueue := rest }
  set s1 : State := s0.modPair p (Pair.tainted r.overrun)
  have hpair : s1.pair p = q.tainted r.overrun := modPair_same _ p _
  constructor
  · intro e he htag est
    obtain ⟨hwith, hlate, hremove⟩ := removeOpen_eq_filter (hdistinct p) he htag
    have hmatch : matchCompletion p r s1 = completeOpen p r e s1 := by
      rw [matchCompletion_open (by rw [hpair]; exact hwith), hhold]
      rfl
    set kept := q.openList.filter fun f => decide (f.tag ≠ r.tag)
    have hapart : ∀ f ∈ kept, f.tag ≠ r.tag := fun f hf => of_decide_eq_true (List.mem_filter.mp hf).2
    have hfreed := openFreed_tainted (q := q) (tag := r.tag) (overrun := r.overrun)
    rw [hremove, hwindow, ← hpair] at hfreed
    have hv := (modPair_same s1 p (Pair.openFreed r.tag)).trans hfreed
    have hsampled := completeOpen_sampled (s := s1) (p := p) (r := r) e
    obtain ⟨t, htaken, hhanded, hframe, hothers, hdesc, hest, htimeout⟩ :=
      takesCompletion_sampled hhead hs hrole hkind hrest hmatch (v := s1.modPair p (Pair.openFreed r.tag)) rfl
        (fun x hx => (modPair_other s1 hx _).trans (modPair_other s0 hx _)) (by rw [hv]) (by rw [hv]) hsampled
    obtain ⟨hopenAbsent, hlateAbsent⟩ := hsampled.absent (tag := r.tag) (by rw [hv]; exact hapart) (by rw [hv]; exact hlate)
    have hcounters := hsampled.counters
    rw [hv] at hcounters
    refine ⟨_, t, htaken, hhanded, hframe, hothers, hdesc, hest, htimeout, by rw [hcounters], by rw [hcounters],
      hopenAbsent, hlateAbsent, fun hstays hwait => ?_⟩
    have hrests := completeOpen_rests hfreed (e := e)
      (fun f hf => hwait f (List.mem_filter.mp hf).1 (hapart f hf)) hstays
    rw [hrests]
    exact ⟨rfl, modPair_same s1 p _⟩
  · intro e he htag est
    obtain ⟨hnone, hwith, hopen, hremove⟩ := removeLate_eq_filter (hdistinct p) he htag
    have hmatch : matchCompletion p r s1 = completeLate p r e s1 := by
      rw [matchCompletion_late (by rw [hpair]; exact hnone) (by rw [hpair]; exact hwith), hhold]
      rfl
    set kept := q.lateList.filter fun f => decide (f.entry.tag ≠ r.tag)
    have hapart : ∀ f ∈ kept, f.entry.tag ≠ r.tag := fun f hf => of_decide_eq_true (List.mem_filter.mp hf).2
    have hfreed := lateFreed_tainted (q := q) (tag := r.tag) (overrun := r.overrun)
    rw [hremove, hwindow, ← hpair] at hfreed
    set v : State := post (pairSource p) .late (s1.modPair p (Pair.lateFreed r.tag))
    have hv : v.pair p = _ := (modPair_same s1 p (Pair.lateFreed r.tag)).trans hfreed
    obtain ⟨⟨hcauses, -, -, -, hpending, -⟩, -⟩ : Posted (pairSource p) .late s0 v := posted_of_iar rfl
    have hl : min (elapsed r.commitTime e.entry.arrival) (s1.pair p).desc.tceil
        = min (r.commitTime - e.entry.arrival).toNat q.desc.tceil := by rw [hpair]; rfl
    have hsampled : Sampled p _ v _ := completeLate_sampled hl
    obtain ⟨t, htaken, hhanded, hframe, hothers, hdesc, hest, htimeout⟩ :=
      takesCompletion_sampled hhead hs hrole hkind hrest hmatch (v := v) rfl
        (fun x hx => (modPair_other s1 hx _).trans (modPair_other s0 hx _)) (by rw [hv]) (by rw [hv]) hsampled
    obtain ⟨hopenAbsent, hlateAbsent⟩ := hsampled.absent (tag := r.tag) (by rw [hv]; exact hopen) (by rw [hv]; exact hapart)
    have hcounters := hsampled.counters
    rw [hv] at hcounters
    have hlateBit : (v.source (pairSource p)).causes.getLsbD 2 = true := by
      rw [hcauses, BitVec.getLsbD_or]
      exact Bool.or_eq_true_iff.mpr (.inr rfl)
    refine ⟨_, t, htaken, hhanded, hframe, hothers, hdesc, hest, htimeout, by rw [hcounters], by rw [hcounters],
      hsampled.causes _ 2 hlateBit, hsampled.pending _ hpending, hopenAbsent, hlateAbsent, fun hstays hwait => ?_⟩
    have hrests := completeLate_rests hfreed hl (fun f hf => hwait f (List.mem_filter.mp hf).1 (hapart f hf)) hstays
    rw [hrests]
    exact ⟨posted_of_iar rfl, modPair_same s1 p _⟩

end Sys2Proof.Machine
end

/-! ## A pair is described -/
section

namespace Sys2Proof.Machine

/-! ### The stream fields of SET_PAIR (R43) -/

/-- A stream field names this stream, or none. -/
def FieldNames (b : Byte) : Option StreamIx → Prop
  | none => b.toNat = 0
  | some n => b.toNat = n.1 + 1

theorem streamFieldOf_eq {b : Byte} {f : Option StreamIx} : streamFieldOf b = some f ↔ FieldNames b f := by
  unfold streamFieldOf
  split
  · next hb => cases f <;> simp [FieldNames, hb]
  · next hb =>
    cases f with
    | none => simp [FieldNames, hb]
    | some n => simp [FieldNames, streamOf_eq]

theorem fieldNames_exists {b : Byte} (h : b.toNat ≤ 16) : ∃ f, FieldNames b f := by
  match hb : b.toNat with
  | 0 => exact ⟨none, hb⟩
  | k + 1 => exact ⟨some ⟨k, by omega⟩, hb⟩

theorem FieldNames.le {b : Byte} {f : Option StreamIx} (h : FieldNames b f) : b.toNat ≤ 16 := by
  cases f with
  | none => exact (show b.toNat = 0 from h).trans_le (Nat.zero_le 16)
  | some n =>
    have hb : b.toNat = n.1 + 1 := h
    omega

/-- The stream that a field names has the role, and no other pair's descriptor names it (R43). -/
def FieldFits (s : State) (p : PairIx) (b : Byte) (role : Role) : Prop :=
  ∀ n : StreamIx, b.toNat = n.1 + 1 → (s.stream n).desc.role = role
    ∧ ∀ r : PairIx, r ≠ p → (s.pair r).desc.requestStream ≠ some n ∧ (s.pair r).desc.completionStream ≠ some n

theorem unclaimedBy_iff {s : State} {p : PairIx} {n : StreamIx} : unclaimedBy s p (some n) = true
    ↔ ∀ r : PairIx, r ≠ p → (s.pair r).desc.requestStream ≠ some n ∧ (s.pair r).desc.completionStream ≠ some n := by
  simp only [unclaimedBy, List.all_eq_true, Bool.or_eq_true, Bool.and_eq_true, decide_eq_true_eq, mem_allPairs, true_imp_iff,
    or_iff_not_imp_left, ne_eq]

theorem fieldFits_iff {s : State} {p : PairIx} {b : Byte} {role : Role} {f : Option StreamIx} (h : FieldNames b f) :
    FieldFits s p b role ↔ hasRole s role f = true ∧ unclaimedBy s p f = true := by
  cases f with
  | none =>
    have hb : b.toNat = 0 := h
    exact ⟨fun _ => ⟨rfl, rfl⟩, fun _ n hn => absurd (hb ▸ hn) (by omega)⟩
  | some n =>
    have hb : b.toNat = n.1 + 1 := h
    rw [unclaimedBy_iff, hasRole, decide_eq_true_eq]
    refine ⟨fun k => k n hb, fun k m hm => ?_⟩
    obtain rfl : n = m := Fin.ext (by omega)
    exact k

/-! ### The checks of SET_PAIR, and the descriptor that it writes (R43, R44) -/

/-- The operands of SET_PAIR pass the checks on the pair that they describe. -/
def SetPairFits (s : State) (p : PairIx) (o : SetPairOps) : Prop :=
  o.requestStream.toNat ≤ 16 ∧ o.completionStream.toNat ≤ 16 ∧ o.expectFetch.toNat ≤ 1 ∧ o.fence.toNat ≤ 1
    ∧ FieldFits s p o.requestStream .request ∧ FieldFits s p o.completionStream .completion
    ∧ clampTo 1 1048575 o.tfloor.toNat ≤ clampTo 1 1048575 o.tceil.toNat

/-- The descriptor that SET_PAIR writes. -/
def describedPair (o : SetPairOps) (req comp : Option StreamIx) : PairDesc :=
  o.tuned req comp (decide (o.expectFetch.toNat = 1)) (decide (o.fence.toNat = 1))

/-- A pair with T recomputed. -/
def Pair.retimed (factor : Nat) (q : Pair) : Pair := { q with timeout := timeoutOf q.desc q.est factor }

/-- Where no head moves, a new T is all that its recomputation gives (R82). -/
theorem recomputeT_rests {s : State} {p : PairIx}
    (h : examineBoth p (s.modPair p (Pair.retimed s.vrd.factor)) = s.modPair p (Pair.retimed s.vrd.factor)) :
    recomputeT p s = s.modPair p (Pair.retimed s.vrd.factor) := by
  unfold recomputeT
  dsimp only
  split
  · next ht => exact (modPair_unchanged s p (by rw [Pair.retimed, ht])).symm
  · exact (congrArg (examineBoth p) (modPair_congr rfl)).trans h

/-- A DISABLED pair takes a new T and no more (R64, R82). -/
theorem recomputeT_disabled {s : State} {p : PairIx} (h : (s.pair p).health = .disabled) :
    recomputeT p s = s.modPair p (Pair.retimed s.vrd.factor) := by
  refine recomputeT_rests ?_
  have hinactive : ((s.modPair p (Pair.retimed s.vrd.factor)).pair p).health.active = false := by
    rw [modPair_same, Pair.retimed, h]
    rfl
  rw [examineBoth, examineOpen_inactive hinactive, examineLate_inactive hinactive]

theorem pairNumbered_none {k : Nat} (h : k = 0 ∨ 8 < k) : pairNumbered k = none := by
  rw [pairNumbered, dif_neg (by omega)]

section
variable {o : SetPairOps} {s : State} {p : PairIx}

theorem takenSetPair_numberless (h : o.pair.toNat = 0 ∨ 8 < o.pair.toNat) : takenSetPair o s = (s, Reply.plain .range) := by
  rw [takenSetPair, pairNumbered_none h]
  rfl

variable (hn : o.pair.toNat = p.1 + 1)
include hn

theorem takenSetPair_inService (hd : (s.pair p).health ≠ .disabled) : takenSetPair o s = (s, Reply.plain .busy) := by
  simp only [takenSetPair, (pairNumbered_eq p).mpr hn, if_pos hd, refuse]

variable (hd : (s.pair p).health = .disabled)
include hd

theorem takenSetPair_unfit (h : ¬ SetPairFits s p o) : takenSetPair o s = (s, Reply.plain .range) := by
  simp only [takenSetPair, (pairNumbered_eq p).mpr hn, if_neg (not_not.mpr hd)]
  split
  · next req comp fetch fence hreq hcomp hfetch hfence =>
    obtain ⟨hfetch, -⟩ := flagOf_eq_some.mp hfetch
    obtain ⟨hfence, -⟩ := flagOf_eq_some.mp hfence
    have hreq := streamFieldOf_eq.mp hreq
    have hcomp := streamFieldOf_eq.mp hcomp
    split
    · rfl
    · next hroles =>
      split
      · rfl
      · next hclaims =>
        split
        · rfl
        · next hceil =>
          obtain ⟨hrole, hrole'⟩ := not_not.mp hroles
          obtain ⟨hown, hown'⟩ := not_not.mp hclaims
          exact absurd ⟨hreq.le, hcomp.le, hfetch, hfence, (fieldFits_iff hreq).mpr ⟨hrole, hown⟩,
            (fieldFits_iff hcomp).mpr ⟨hrole', hown'⟩, Nat.not_lt.mp hceil⟩ h
  · rfl

theorem takenSetPair_fit (h : SetPairFits s p o) : ∃ req comp, FieldNames o.requestStream req
    ∧ FieldNames o.completionStream comp
    ∧ takenSetPair o s = (s.modPair p fun q => { q with
          desc := describedPair o req comp, timeout := timeoutOf (describedPair o req comp) q.est s.vrd.factor },
        Reply.plain (takenStatus (o.clamped (describedPair o req comp)))) := by
  obtain ⟨hreq, hcomp, hfetch, hfence, hreqFits, hcompFits, hceil⟩ := h
  obtain ⟨req, hreq⟩ := fieldNames_exists hreq
  obtain ⟨comp, hcomp⟩ := fieldNames_exists hcomp
  obtain ⟨hrole, hown⟩ := (fieldFits_iff hreq).mp hreqFits
  obtain ⟨hrole', hown'⟩ := (fieldFits_iff hcomp).mp hcompFits
  have hwritten : recomputeT p (s.modPair p fun q => { q with desc := describedPair o req comp })
      = s.modPair p fun q => { q with
          desc := describedPair o req comp, timeout := timeoutOf (describedPair o req comp) q.est s.vrd.factor } := by
    rw [recomputeT_disabled (by rw [modPair_same]; exact hd), modPair_modPair]
    rfl
  refine ⟨req, comp, hreq, hcomp, ?_⟩
  rw [← hwritten]
  have hroles : ¬ ¬ (hasRole s .request req = true ∧ hasRole s .completion comp = true) := not_not.mpr ⟨hrole, hrole'⟩
  have hclaims : ¬ ¬ (unclaimedBy s p req = true ∧ unclaimedBy s p comp = true) := not_not.mpr ⟨hown, hown'⟩
  simp only [takenSetPair, (pairNumbered_eq p).mpr hn, if_neg (not_not.mpr hd), streamFieldOf_eq.mpr hreq,
    streamFieldOf_eq.mpr hcomp, flagOf_eq_some.mpr ⟨hfetch, rfl⟩, flagOf_eq_some.mpr ⟨hfence, rfl⟩]
  rw [if_neg hroles, if_neg hclaims]
  exact if_neg (Nat.not_lt.mpr hceil)

end

theorem takenStatus_decide_not {P : Prop} [Decidable P] : takenStatus (decide ¬ P) = if P then .ok else .clamped := by
  rw [takenStatus, decide_not]
  by_cases h : P <;> simp [h]

theorem answers_setPair {l : Manager} {o : SetPairOps} {s t : State} {st : Status}
    (h : takenSetPair o s = (t, Reply.plain st)) : Answers l (.setPair l o) s t st := by
  rw [Answers, ← Reply.plain, ← h]
  rfl

/-- Settles O53. -/
theorem setPairIsTaken : Obligations.SetPairIsTaken := by
  intro l o s c
  refine ⟨fun h => answers_setPair (takenSetPair_numberless h), ?_⟩
  intro p hn q fits tfloor tceil valid
  refine ⟨fun hd => answers_setPair (takenSetPair_inService hn hd),
    fun hd hvalid => answers_setPair (takenSetPair_unfit hn hd hvalid), fun hd hvalid => ?_⟩
  obtain ⟨req, comp, hreq, hcomp, htaken⟩ := takenSetPair_fit hn hd hvalid
  have hanswer := htaken.trans (congrArg (fun st => (_, Reply.plain st)) takenStatus_decide_not)
  refine ⟨_, describedPair o req comp, answers_setPair hanswer, ?_, ?_, ?_, rfl, fun x hx => modPair_other s hx _,
    modPair_same s p _⟩
  · cases req <;> exact hreq
  · cases comp <;> exact hcomp
  · simp only [describedPair, SetPairOps.tuned, clampTo, Nat.max_zero]
    rfl

end Sys2Proof.Machine
end

/-! ## Pairs enter and leave service -/
section

namespace Sys2Proof.Machine

/-! ### A pair without entries -/

/-- An enabled pair without entries takes a new T and no more (R82). -/
theorem recomputeT_vacant {s : State} {p : PairIx} (hd : (s.pair p).health ≠ .draining)
    (hopen : (s.pair p).openList = []) (hlate : (s.pair p).lateList = []) :
    recomputeT p s = s.modPair p (Pair.retimed s.vrd.factor) := by
  set t := s.modPair p (Pair.retimed s.vrd.factor) with ht
  have hpair : t.pair p = (s.pair p).retimed s.vrd.factor := modPair_same s p _
  refine recomputeT_rests ?_
  rw [← ht, examineBoth, examineOpen_rests fun e he => ?_, examineLate_rests fun e he => ?_, settleDraining,
    if_neg fun h => hd ?_]
  · rw [hpair] at h
    exact h.1
  · rw [hpair, Pair.retimed, hlate] at he
    cases he
  · rw [hpair, Pair.retimed, hopen] at he
    cases he

theorem timeoutOf_initial {d : PairDesc} (h : 1 ≤ d.armingCount) (factor : Nat) :
    timeoutOf d .initial factor = d.tceil * factor := by
  have harming : arming d .initial = true := decide_eq_true h
  rw [timeoutOf, if_pos harming]

/-- A pair taken out of service is DRAINING while it has entries, and DISABLED without (R46, R47). -/
theorem retired_drained (q : Pair) : q.retired.drained = { q with
    health := if q.openList = [] ∧ q.lateList = [] then .disabled else .draining
    hev := { q.hev with window := none, quiesceStart := none, confirm := 0, promotionPending := false } } := by
  have hdraining : (q.retired.health = .draining ∧ q.retired.openList = [] ∧ q.retired.lateList = [])
      ↔ q.openList = [] ∧ q.lateList = [] := ⟨And.right, fun h => ⟨rfl, h⟩⟩
  simp only [drained_eq, hdraining]
  rfl

/-! ### ENABLE_PAIR, RETIRE_PAIR and CLEAR_PAIR by the state of the pair (R45, R46, R97) -/

section
variable {b : Byte} {s : State}

theorem takenEnablePair_numberless (h : b.toNat = 0 ∨ 8 < b.toNat) : takenEnablePair b s = (s, Reply.plain .range) := by
  rw [takenEnablePair, pairNumbered_none h]
  rfl

theorem takenRetirePair_numberless (h : b.toNat = 0 ∨ 8 < b.toNat) : takenRetirePair b s = (s, Reply.plain .range) := by
  rw [takenRetirePair, pairNumbered_none h]
  rfl

theorem takenClearPair_numberless (h : b.toNat = 0 ∨ 8 < b.toNat) : takenClearPair b s = (s, Reply.plain .range) := by
  rw [takenClearPair, pairNumbered_none h]
  rfl

variable {p : PairIx} (hn : b.toNat = p.1 + 1)
include hn

theorem takenEnablePair_inService (hd : (s.pair p).health ≠ .disabled) :
    takenEnablePair b s = (s, Reply.plain .busy) := by
  simp only [takenEnablePair, (pairNumbered_eq p).mpr hn, if_pos hd, refuse]

theorem takenEnablePair_unnamed (hd : (s.pair p).health = .disabled)
    (hnone : (s.pair p).desc.requestStream = none ∨ (s.pair p).desc.completionStream = none) :
    takenEnablePair b s = (s, Reply.plain .range) := by
  simp only [takenEnablePair, (pairNumbered_eq p).mpr hn, if_neg (not_not.mpr hd), if_pos hnone, refuse]

theorem takenEnablePair_started (hd : (s.pair p).health = .disabled)
    (hnamed : ¬ ((s.pair p).desc.requestStream = none ∨ (s.pair p).desc.completionStream = none))
    (hopen : (s.pair p).openList = []) (hlate : (s.pair p).lateList = []) : takenEnablePair b s
      = (s.modPair p fun q => (q.started (freshWindow s)).retimed s.vrd.factor, Reply.plain .ok) := by
  have hstarted : (s.modPair p (Pair.started (freshWindow s))).pair p = (s.pair p).started (freshWindow s) :=
    modPair_same s p _
  simp only [takenEnablePair, (pairNumbered_eq p).mpr hn, if_neg (not_not.mpr hd), if_neg hnamed, done]
  rw [recomputeT_vacant (by rw [hstarted]; rintro ⟨⟩) (by rw [hstarted]; exact hopen) (by rw [hstarted]; exact hlate),
    modPair_modPair]
  rfl

theorem takenRetirePair_failed (hh : (s.pair p).health = .failed) : takenRetirePair b s = (s, Reply.plain .busy) := by
  simp only [takenRetirePair, (pairNumbered_eq p).mpr hn, hh, refuse]

theorem takenRetirePair_leaving (hh : (s.pair p).health = .disabled ∨ (s.pair p).health = .draining) :
    takenRetirePair b s = (s, Reply.plain .ok) := by
  rcases hh with hh | hh <;> simp only [takenRetirePair, (pairNumbered_eq p).mpr hn, hh, done]

theorem takenRetirePair_retires (hh : (s.pair p).health = .healthy ∨ (s.pair p).health = .watch
      ∨ (s.pair p).health = .suspect ∨ (s.pair p).health = .quiesced) :
    takenRetirePair b s = (s.modPair p fun q => q.retired.drained, Reply.plain .ok) := by
  have hretired : settleDraining p (s.modPair p Pair.retired) = s.modPair p fun q => q.retired.drained := by
    rw [settleDraining_eq, modPair_modPair]
  rcases hh with hh | hh | hh | hh <;> simp only [takenRetirePair, (pairNumbered_eq p).mpr hn, hh, done, hretired]

theorem takenClearPair_inOrder (hh : (s.pair p).health ≠ .failed) : takenClearPair b s = (s, Reply.plain .range) := by
  simp only [takenClearPair, (pairNumbered_eq p).mpr hn, if_pos hh, refuse]

theorem takenClearPair_clears (hh : (s.pair p).health = .failed) : takenClearPair b s
    = (if (s.pair p).desc.fence then leaveTrigger (.pair p) (s.modPair p (Pair.cleared (freshWindow s)))
      else s.modPair p (Pair.cleared (freshWindow s)), Reply.plain .ok) := by
  simp only [takenClearPair, (pairNumbered_eq p).mpr hn, if_neg (not_not.mpr hh), done]

end

section
variable {l : Manager} {b : Byte} {s t : State} {st : Status}

theorem answers_enablePair (h : takenEnablePair b s = (t, Reply.plain st)) : Answers l (.enablePair l b) s t st := by
  rw [Answers, ← Reply.plain, ← h]
  rfl

theorem answers_retirePair (h : takenRetirePair b s = (t, Reply.plain st)) : Answers l (.retirePair l b) s t st := by
  rw [Answers, ← Reply.plain, ← h]
  rfl

theorem answers_clearPair (h : takenClearPair b s = (t, Reply.plain st)) : Answers l (.clearPair l b) s t st := by
  rw [Answers, ← Reply.plain, ← h]
  rfl

end

/-- Settles O54. -/
theorem pairsEnterAndLeaveService : Obligations.PairsEnterAndLeaveService := by
  intro l b s hentries hranges fresh
  refine ⟨fun h => ⟨answers_enablePair (takenEnablePair_numberless h), answers_retirePair (takenRetirePair_numberless h),
    answers_clearPair (takenClearPair_numberless h)⟩, fun p hn => ?_⟩
  intro q named
  have hnamed : named ↔ ¬ (q.desc.requestStream = none ∨ q.desc.completionStream = none) := by
    simp only [named, not_or, Option.isSome_iff_ne_none]
  refine ⟨fun hd => answers_enablePair (takenEnablePair_inService hn hd),
    fun hd h => answers_enablePair (takenEnablePair_unnamed hn hd (not_not.mp (mt hnamed.mpr h))), fun hd h => ?_,
    fun hh => answers_retirePair (takenRetirePair_failed hn hh),
    fun hh => answers_retirePair (takenRetirePair_leaving hn hh), fun hh => ?_,
    fun hh => answers_clearPair (takenClearPair_inOrder hn hh), fun hh => ?_⟩
  · obtain ⟨hvacant, -⟩ := hentries p
    obtain ⟨hopen, hlate⟩ := hvacant hd
    obtain ⟨-, hpairs, -⟩ := hranges
    obtain ⟨⟨-, -, -, -, -, -, -, -, -, -, -, -, harming, -⟩, -⟩ := hpairs p
    refine ⟨_, answers_enablePair (takenEnablePair_started hn hd (hnamed.mp h) hopen hlate), rfl,
      fun x hx => modPair_other s hx _, (modPair_same s p _).trans ?_⟩
    simp only [Pair.started, Pair.retimed, timeoutOf_initial harming]
    rw [hopen, hlate]
    rfl
  · refine ⟨_, answers_retirePair (takenRetirePair_retires hn hh), rfl, fun x hx => modPair_other s hx _,
      (modPair_same s p _).trans (retired_drained _)⟩
  · refine ⟨_, answers_clearPair (takenClearPair_clears hn hh), ?_⟩
    split
    · next hfence =>
      refine ⟨rfl, fun x hx => modPair_other s hx _, modPair_same s p _, fun _ => ?_, fun h => ?_, fun m hm => ?_⟩
      · exact (TriggerSet.has_remove (.pair p) ..).trans (by rw [decide_eq_true rfl, Bool.not_true, Bool.and_false])
      · rw [hfence] at h; cases h
      · exact (TriggerSet.has_remove ..).trans (by rw [decide_eq_false hm, Bool.not_false, Bool.and_true]; rfl)
    · next hfence =>
      exact ⟨rfl, fun x hx => modPair_other s hx _, modPair_same s p _, fun h => absurd h hfence, fun _ => rfl,
        fun _ _ => rfl⟩

end Sys2Proof.Machine
end

/-! ## The timeouts and the clocks: what the shared operations leave of them -/
section

namespace Sys2Proof.Machine

/-! ### The timeouts under a hold-off factor (R80, R81, R135) -/

/-- What T is computed from, and T (R80). -/
def Pair.timing (q : Pair) : PairDesc × Estimator × Nat := (q.desc, q.est, q.timeout)

/-- The F that a verdict gives, where a hold-off multiplies by `f` (R81, R135). -/
def Vrd.factorBy (f : Nat) (v : Vrd) : Nat :=
  match v.verdict with
  | .holdoff _ => f
  | _ => 1

/-- Every pair's T is computed with F, and F is the one that the verdict gives, where a hold-off multiplies by `f`. SET_VERDICT
writes the hold-off factor before it acts on it, so `f` need not be the factor of the settings (R130). -/
def TimedBy (f : Nat) (s : State) : Prop :=
  (∀ p : PairIx, (s.pair p).timeout = timeoutOf (s.pair p).desc (s.pair p).est s.vrd.factor)
    ∧ s.vrd.factor = s.vrd.factorBy f

theorem timeoutsHold_iff {s : State} : TimeoutsHold s ↔ TimedBy s.vrd.settings.holdoffFactor s := Iff.rfl

/-- What every operation leaves that is not about the clocks or the hold-off factor: both clocks and the verdict settings as they
were, and T the one that F gives. -/
def Steady (s t : State) : Prop :=
  t.clock = s.clock ∧ t.stamp = s.stamp ∧ t.vrd.settings = s.vrd.settings ∧ ∀ f, TimedBy f s → TimedBy f t

theorem Steady.timeoutsHold {s t : State} (h : Steady s t) (hs : TimeoutsHold s) : TimeoutsHold t := by
  obtain ⟨-, -, hsettings, htimed⟩ := h
  rw [timeoutsHold_iff, hsettings]
  exact htimed _ hs

namespace Steady

theorem refl (s : State) : Steady s s := ⟨rfl, rfl, rfl, fun _ => id⟩

theorem trans {s t u : State} (h : Steady s t) (k : Steady t u) : Steady s u := by
  obtain ⟨hclock, hstamp, hsettings, htimed⟩ := h
  obtain ⟨kclock, kstamp, ksettings, ktimed⟩ := k
  exact ⟨kclock.trans hclock, kstamp.trans hstamp, ksettings.trans hsettings, fun f => ktimed f ∘ htimed f⟩

/-- The operation done last first, as a meaning writes it. -/
theorem comp {s t u : State} (k : Steady t u) (h : Steady s t) : Steady s u := h.trans k

theorem ite {s t u : State} {c : Prop} [Decidable c] (h : Steady s t) (k : Steady s u) :
    Steady s (if c then t else u) := by
  split
  · exact h
  · exact k

theorem foldl {γ : Type} {f : State → γ → State} (hf : ∀ t a, Steady t (f t a)) (l : List γ) (s : State) :
    Steady s (l.foldl f s) :=
  foldl_keeps (P := Steady s) (fun t a h => h.trans (hf t a)) l (refl s)

/-- Nothing has changed of the clocks, the pairs and the Verdict Unit. -/
theorem of_same {s t : State} (hclock : t.clock = s.clock) (hstamp : t.stamp = s.stamp) (hpairs : t.pairs = s.pairs)
    (hvrd : t.vrd = s.vrd) : Steady s t := by
  have hpair (p : PairIx) : t.pair p = s.pair p := by rw [State.pair, State.pair, hpairs]
  refine ⟨hclock, hstamp, by rw [hvrd], fun f h => ?_⟩
  simpa only [TimedBy, hpair, hvrd] using h

/-- Of the pairs nothing has changed that T is computed from, nor T. -/
theorem of_timing {s t : State} (hclock : t.clock = s.clock) (hstamp : t.stamp = s.stamp) (hvrd : t.vrd = s.vrd)
    (h : ∀ p, (t.pair p).timing = (s.pair p).timing) : Steady s t := by
  refine ⟨hclock, hstamp, by rw [hvrd], fun f ⟨htimeout, hfactor⟩ => ⟨fun p => ?_, by rw [hvrd]; exact hfactor⟩⟩
  obtain ⟨hdesc, hest⟩ := Prod.mk.inj (h p)
  obtain ⟨hest, ht⟩ := Prod.mk.inj hest
  rw [hvrd, ht, hdesc, hest]
  exact htimeout p

theorem modPair {s : State} {p : PairIx} {f : Pair → Pair} (h : (f (s.pair p)).timing = (s.pair p).timing) :
    Steady s (s.modPair p f) :=
  of_timing rfl rfl rfl fun r => by
    rw [modPair_place]
    split
    · next e => subst e; exact h
    · rfl

theorem modVrd {s : State} {f : Vrd → Vrd} (hsettings : (f s.vrd).settings = s.vrd.settings)
    (hfactor : (f s.vrd).factor = s.vrd.factor) (hby : ∀ g, (f s.vrd).factorBy g = s.vrd.factorBy g) :
    Steady s (s.modVrd f) := by
  refine ⟨rfl, rfl, hsettings, fun g ⟨htimeout, hg⟩ => ⟨fun p => ?_, ?_⟩⟩
  · rw [modVrd_vrd, hfactor]
    exact htimeout p
  · rw [modVrd_vrd, hfactor, hby]
    exact hg

theorem post (i : SourceIx) (c : Cause) (s : State) : Steady s (post i c s) := .refl s

theorem modLink (s : State) (m : Manager) (f : Link → Link) : Steady s (s.modLink m f) := by
  cases m <;> exact .refl s

end Steady

theorem Examined.steady {p : PairIx} {s t : State} (h : Examined p s t) : Steady s t := by
  refine .of_timing (by rw [h.frame]) (by rw [h.frame]) (by rw [h.frame]) fun r => ?_
  by_cases hr : r = p
  · rw [hr, Pair.timing, h.desc, h.est, h.timeout, Pair.timing]
  · rw [h.others r hr]

theorem FindingOnly.steady {p : PairIx} {s t : State} (h : FindingOnly p s t) : Steady s t := h.examined.steady

theorem AssemblerOnly.steady {n : StreamIx} {s t : State} (h : AssemblerOnly n s t) : Steady s t := by
  rw [h.frame]; exact .refl s

/-! ### T recomputed (R80 to R83) -/

/-- However one pair is changed, it has the T that F gives once T is recomputed. -/
theorem recomputeT_modPair_steady (p : PairIx) (f : Pair → Pair) (s : State) : Steady s (recomputeT p (s.modPair p f)) := by
  obtain ⟨hframe, hothers, hdesc, hest, htimeout⟩ := recomputeT_spec (s.modPair p f) p
  refine ⟨by rw [hframe]; rfl, by rw [hframe]; rfl, by rw [recomputeT_vrd]; rfl, fun g ⟨htimed, hg⟩ => ⟨fun r => ?_, ?_⟩⟩
  · by_cases hr : r = p
    · rw [hr, htimeout, hdesc, hest, recomputeT_vrd]
    · rw [hothers r hr, modPair_other s hr, recomputeT_vrd]
      exact htimed r
  · rw [recomputeT_vrd]
    exact hg

theorem takeSample_steady (p : PairIx) (l : Nat) (s : State) : Steady s (takeSample p l s) :=
  recomputeT_modPair_steady p _ s

/-- With the F that the verdict gives, every T is the one that F gives (R81). -/
theorem setFactor_timedBy {f g : Nat} {s : State} (h : f = s.vrd.factorBy g) : TimedBy g (setFactor f s) := by
  refine ⟨fun p => ?_, ?_⟩
  · obtain ⟨hdesc, hest, htimeout, -⟩ := setFactor_pair f s p
    rw [hdesc, hest, htimeout, setFactor_vrd]
  · rw [setFactor_vrd]
    exact h

theorem setFactor_clocks (f : Nat) (s : State) :
    (setFactor f s).clock = s.clock ∧ (setFactor f s).stamp = s.stamp := by
  rw [setFactor_only s f]
  exact ⟨rfl, rfl⟩

/-- A verdict other than HOLDOFF entered with F set to 1 (R133, R136). -/
theorem setFactor_one_steady {s t : State} (hclock : t.clock = s.clock) (hstamp : t.stamp = s.stamp)
    (hsettings : t.vrd.settings = s.vrd.settings) (hverdict : ∀ h, t.vrd.verdict ≠ .holdoff h) :
    Steady s (setFactor 1 t) := by
  obtain ⟨kclock, kstamp⟩ := setFactor_clocks 1 t
  refine ⟨kclock.trans hclock, kstamp.trans hstamp, by rw [setFactor_vrd]; exact hsettings, fun g _ =>
    setFactor_timedBy ?_⟩
  unfold Vrd.factorBy
  split
  · next h hh => exact absurd hh (hverdict h)
  · rfl

/-! ### The Verdict Unit and the Health Evaluator (sections 6 and 8) -/

section
variable (p : PairIx) (m : Trigger) (s : State)

theorem leaveTrigger_steady : Steady s (leaveTrigger m s) := .refl s

theorem joinInFault_steady : Steady s (joinInFault m s) := .ite (.refl s) (.refl s)

theorem markFailed_steady : Steady s (markFailed p s) := .comp (.post _ _ _) (.modPair rfl)

theorem failInFault_steady : Steady s (failInFault p s) :=
  .ite ((joinInFault_steady _ _).comp (markFailed_steady p s)) (markFailed_steady p s)

theorem promoteInFault_steady : Steady s (promoteInFault s) :=
  .foldl (fun t r => .ite (failInFault_steady r t) (.refl t)) allPairs s

/-- From NORMAL, F is 1 already; from HOLDOFF it becomes 1 before the pending pairs are promoted (R133). -/
theorem enterFault_steady (hv : s.vrd.verdict ≠ .fault) : Steady s (enterFault m s) := by
  cases hverdict : s.vrd.verdict with
  | normal =>
    rw [enterFault_normal hverdict]
    exact .comp (.post _ _ _) (.modVrd rfl rfl fun g => by simp only [Vrd.factorBy, hverdict])
  | holdoff h =>
    rw [enterFault_holdoff hverdict]
    exact (promoteInFault_steady _).comp (setFactor_one_steady rfl rfl rfl nofun)
  | fault => exact absurd hverdict hv

theorem joinTrigger_steady : Steady s (joinTrigger m s) := by
  unfold joinTrigger
  refine .ite (.refl s) ?_
  split
  · exact joinInFault_steady m s
  · next hv => exact enterFault_steady m s hv

theorem failPair_steady : Steady s (failPair p s) :=
  .ite ((joinTrigger_steady _ _).comp (markFailed_steady p s)) (markFailed_steady p s)

theorem promotePending_steady : Steady s (promotePending s) :=
  .foldl (fun t r => .ite (failPair_steady r t) (.refl t)) (promotionOrder s) s

theorem passLimit_steady {h : HoldOff} (hv : s.vrd.verdict = .holdoff h) : Steady s (passLimit h s) :=
  (promotePending_steady _).comp (.comp (.post _ _ _) (.modVrd rfl rfl fun g => by simp only [Vrd.factorBy, hv]))

theorem releaseHoldoff_steady : Steady s (releaseHoldoff s) := setFactor_one_steady rfl rfl rfl nofun

theorem enterLost_steady : Steady s (enterLost s) := by
  rw [enterLost_eq]
  exact .ite ((joinTrigger_steady _ _).comp (.refl s)) (.refl s)

theorem suspectSample_steady : Steady s (suspectSample p s) := by
  have hconfirm : Steady s (s.modPair p fun q => { q with hev := { q.hev with confirm := q.hev.confirm + 1 } }) :=
    .modPair rfl
  have hheld (t : State) : Steady t (holdPromotion p t) := .comp (.post _ _ _) (.modPair rfl)
  exact .ite (.ite (.refl s) (failPair_steady p s))
    (.ite (.ite ((hheld _).comp hconfirm) ((failPair_steady p _).comp hconfirm)) hconfirm)

theorem judgeHealth_steady : Steady s (judgeHealth p s) := by
  unfold judgeHealth; dsimp only; split
  · exact .modPair rfl
  · exact .modPair rfl
  · exact .ite (suspectSample_steady p s) (.comp (.post _ _ _) (.modPair rfl))

theorem endWindow_steady : Steady s (endWindow p s) := by
  unfold endWindow; split
  · exact .refl s
  · have hjudged (t : State) (c : WindowClass) : Steady t (judgeWindow p c t) :=
      .ite ((judgeHealth_steady p _).comp (.modPair rfl)) (.refl t)
    exact .comp (.modPair rfl) ((hjudged _ _).comp (.modPair rfl))

theorem quiesceRecord_steady (commit : Clock) : Steady s (quiesceRecord p commit s) := .ite (.modPair rfl) (.modPair rfl)

theorem resumeRecord_steady : Steady s (resumeRecord p s) := .ite (.modPair rfl) (.modPair rfl)

theorem overrunQuiesce_steady : Steady s (overrunQuiesce p s) := .comp (.modPair rfl) (.post _ _ s)

theorem missPulse_steady (n : StreamIx) : Steady s (missPulse n s) :=
  .ite ((joinTrigger_steady _ _).comp (.refl s)) (.refl s)

theorem pulseRecord_steady (n : StreamIx) (commit : Clock) : Steady s (pulseRecord n commit s) := by
  unfold pulseRecord; dsimp only
  exact .comp (.refl _) (.ite (.refl s) (.refl s))

end

/-! ### The Echo Checker and the Probe Engine (section 7) -/

section
variable (s : State)

theorem handOver_steady : Steady s (handOver s) := by
  unfold handOver; split
  · exact .ite (.refl s) (.refl s)
  · exact .refl s

theorem giveUpLine_steady : Steady s (giveUpLine s) := by
  unfold giveUpLine; split <;> exact .refl s

theorem giveUpIf_steady (k : Purpose) : Steady s (giveUpIf k s) := .ite (giveUpLine_steady s) (.refl s)

theorem retireEntry_steady (e : EchoEntry) : Steady s (retireEntry e s) :=
  .ite ((giveUpIf_steady _ _).comp (.refl s)) (.refl s)

theorem countEcho_steady (f : EchoCounters → EchoCounters) : Steady s (countEcho f s) := .refl s

theorem echoFinding_steady (p : PairIx) (c : Cause) : Steady s (echoFinding p c s) := (echoFinding_finding s p c).steady

theorem compareEntry_steady (e : EchoEntry) : Steady s (compareEntry e s) :=
  .ite (.ite (retireEntry_steady s e) ((echoFinding_steady _ _ _).comp (retireEntry_steady s e))) (.refl s)

theorem entryRead_steady (e : EchoEntry) (i : Nat) (d : LineData) : Steady s (entryRead e i d s) :=
  .ite ((compareEntry_steady _ _).comp (.refl s)) (.refl s)

theorem lineRead_steady (k : SlotKey) (i : Nat) (d : LineData) : Steady s (lineRead k i d s) := by
  unfold lineRead; split
  · exact .refl s
  · exact entryRead_steady s _ i d

theorem overtake_steady (k : SlotKey) : Steady s (overtake k s) := by
  unfold overtake; split
  · exact .refl s
  · exact retireEntry_steady s _

theorem dropOldest_steady : Steady s (dropOldest s) := by
  unfold dropOldest; split
  · exact .refl s
  · exact .ite (.refl s) (retireEntry_steady s _)

theorem appendEcho_steady (p : PairIx) (r : Record) : Steady s (appendEcho p r s) := .ite (.refl s) (dropOldest_steady s)

theorem endSingle_steady (o : SingleOutcome) : Steady s (endSingle o s) := by
  unfold endSingle; split <;> exact .refl s

theorem takeLine_steady (l : LineInHand) : Steady s (takeLine l s) := (handOver_steady _).comp (.refl s)

theorem takeEntryLine_steady : Steady s (takeEntryLine s) := by
  unfold takeEntryLine; split
  · exact .refl s
  · split
    · exact .refl s
    · exact takeLine_steady s _

theorem takeQueueHead_steady : Steady s (takeQueueHead s) := by
  unfold takeQueueHead; split <;> exact .refl s

theorem prbTake_steady : Steady s (prbTake s) := by
  unfold prbTake
  refine .ite (.refl s) ?_
  split
  · exact takeLine_steady s _
  · exact .ite (takeEntryLine_steady s) ((takeEntryLine_steady _).comp (takeQueueHead_steady s))

theorem starveLine_steady (l : LineInHand) : Steady s (starveLine l s) := by
  unfold starveLine; split
  · exact endSingle_steady s _
  · split
    · exact .refl s
    · exact (echoFinding_steady _ _ _).comp (retireEntry_steady s _)

theorem starveInHand_steady : Steady s (starveInHand s) := by
  unfold starveInHand; split
  · exact (starveLine_steady _ _).comp (giveUpLine_steady s)
  · exact .refl s

theorem abortByClock_steady : Steady s (abortByClock s) := by
  unfold abortByClock; dsimp only
  refine .ite ?_ (.refl s)
  split
  · exact .refl s
  · exact (starveLine_steady _ _).comp (.refl s)
  · exact .ite (.refl s) ((starveLine_steady _ _).comp (.refl s))

theorem lineOutcome_steady (v : Bool) (d : LineData) : Steady s (lineOutcome v d s) := by
  unfold lineOutcome; split
  · dsimp only
    refine .ite (.refl s) ?_
    split
    · exact (endSingle_steady _ _).comp (.refl s)
    · refine .ite (.refl s) ?_
      split
      · exact .refl s
      · exact (entryRead_steady _ _ _ _).comp (.refl s)
  · exact .refl s

theorem judgeOverdue_steady (e : EchoEntry) : Steady s (judgeOverdue e s) :=
  (echoFinding_steady _ _ _).comp (.ite (.refl s) ((retireEntry_steady _ _).comp (.refl s)))

theorem switchProbeOff_steady : Steady s (switchProbeOff s) := by
  have hwatching := giveUpIf_steady s .currentEntry
  unfold switchProbeOff; dsimp only; split
  · exact (endSingle_steady _ _).comp ((giveUpIf_steady _ _).comp hwatching)
  · exact hwatching

theorem withdrawStream_steady (n : StreamIx) : Steady s (withdrawStream n s) :=
  .foldl (fun t e => (countEcho_steady _ _).comp (retireEntry_steady t e)) _ s

theorem flushEcho_steady : Steady s (flushEcho s) := (endSingle_steady _ _).comp (.refl s)

end

/-! ### The Correlator (section 4) -/

section
variable (p : PairIx) (r : Record) (s : State)

theorem examineOpen_steady : Steady s (examineOpen p s) := (examineOpen_examined s p).steady

theorem examineLate_steady : Steady s (examineLate p s) := (examineLate_examined s p).steady

theorem pairedEvent_steady : Steady s (pairedEvent p s) := (pairedEvent_windowOnly s p).finding.steady

theorem addUntracked_steady (k : BitVec 32) : Steady s (addUntracked p k s) := .modPair rfl

theorem insertRequest_steady : Steady s (insertRequest p r s) := by
  have hjoined : Steady s (countPair p (fun c => { c with tracked := c.tracked + 1 })
      (s.modPair p fun q => { q with openList := q.openList ++ [newEntry r] })) := .comp (.modPair rfl) (.modPair rfl)
  have hstopped (c : Cause) : Steady s (addUntracked p 1 (post (pairSource p) c s)) :=
    (addUntracked_steady p _ 1).comp (.post _ _ s)
  exact .ite (hstopped _) (.ite (hstopped _) (.ite ((examineOpen_steady p _).comp hjoined) hjoined))

theorem handleRequest_steady : Steady s (handleRequest p r s) := by
  have hunseen : Steady s (countUnseen p r s) := by
    rw [countUnseen_eq]; exact addUntracked_steady p s _
  exact .ite (.comp (.modPair rfl) hunseen)
    (.ite ((addUntracked_steady p _ 1).comp hunseen) ((insertRequest_steady p r _).comp hunseen))

/-- The drain ended if the freed entry was the last, the new head examined, and the sample taken (R47, R83). -/
theorem completed_steady (l : Nat) {c : Bool} {t : State} {f : State → State} (hf : ∀ u, Steady u (f u))
    (h : Steady s t) : Steady s (takeSample p l (if c then f (settleDraining p t) else settleDraining p t)) := by
  have hdrained := (settleDraining_examined t p).steady.comp h
  exact (takeSample_steady p l _).comp (.ite ((hf _).comp hdrained) hdrained)

theorem completeOpen_steady (e : Entry) : Steady s (completeOpen p r e s) :=
  completed_steady p s _ (examineOpen_steady p) ((pairedEvent_steady p _).comp (.modPair rfl))

theorem completeLate_steady (e : LateEntry) : Steady s (completeLate p r e s) :=
  completed_steady p s _ (examineLate_steady p) ((pairedEvent_steady p _).comp (.comp (.post _ _ _) (.modPair rfl)))

theorem holdOpen_steady (e : Entry) : Steady s (holdOpen p r e s) := by
  have hmoved : Steady s (pairedEvent p (s.modPair p (Pair.openRearmed r.tag (e.rearmed r.commitTime)))) :=
    (pairedEvent_steady p _).comp (.modPair rfl)
  exact .ite (.ite ((examineOpen_steady p _).comp hmoved) hmoved) (.refl s)

theorem holdLate_steady (e : LateEntry) : Steady s (holdLate p r e s) := by
  have hmoved : Steady s (pairedEvent p (s.modPair p (Pair.lateRearmed r.tag (e.entry.rearmed r.commitTime)))) :=
    (pairedEvent_steady p _).comp (.modPair rfl)
  have hexamined := Steady.ite (c := (s.pair p).openList = []) ((examineOpen_steady p _).comp hmoved) hmoved
  exact .ite (.ite ((examineLate_steady p _).comp hexamined) hexamined) (.refl s)

theorem orphan_steady : Steady s (orphan p s) :=
  (adverseEvent_windowOnly _ p).finding.steady.comp (.comp (.post _ _ _) (.modPair rfl))

theorem matchCompletion_steady : Steady s (matchCompletion p r s) := by
  unfold matchCompletion; split
  · next e _ => exact .ite (holdOpen_steady p r s e) (completeOpen_steady p r s e)
  · split
    · next e _ => exact .ite (holdLate_steady p r s e) (completeLate_steady p r s e)
    · exact orphan_steady p s

theorem handleCompletion_steady : Steady s (handleCompletion p r s) := by
  have htaint : Steady s (taintWindow p r s) := .ite (.modPair rfl) (.refl s)
  unfold handleCompletion; dsimp only; split
  · have hmatched := (matchCompletion_steady p r _).comp htaint
    exact .ite ((appendEcho_steady _ p r).comp hmatched) hmatched
  · exact (quiesceRecord_steady p _ _).comp htaint
  · exact (resumeRecord_steady p _).comp htaint
  · exact .refl s

theorem handleRecord_steady : Steady s (handleRecord r s) := by
  unfold handleRecord; split
  · exact pulseRecord_steady s _ _
  · split
    · exact .refl s
    · exact .ite (handleRequest_steady _ r s) (.refl s)
  · split
    · exact .refl s
    · exact .ite (handleCompletion_steady _ r s) (.refl s)
  · exact .refl s

theorem pickup_steady (n : StreamIx) (slot : Nat) : Steady s (pickup n slot s) := by
  unfold pickup; split
  · exact .refl s
  · exact .ite (.modPair rfl) (.refl s)

end

end Sys2Proof.Machine
end

/-! ## What every command leaves of the timeouts and the clocks -/
section

namespace Sys2Proof.Machine

/-! ### The command completes -/

/-- The outcome is a next state that has the property. -/
def Reaches (P : State → Prop) (o : Host.Outcome State Fault Refusal) : Prop := ∃ t, o = .next t ∧ P t

theorem Reaches.next {P : State → Prop} {t : State} (h : P t) : Reaches P (.next t) := ⟨t, rfl, h⟩

theorem Reaches.mono {P Q : State → Prop} {o : Host.Outcome State Fault Refusal} (h : Reaches P o) (k : ∀ t, P t → Q t) :
    Reaches Q o := by
  obtain ⟨t, ho, ht⟩ := h
  exact ⟨t, ho, k t ht⟩

/-! ### The channel (section 2) -/

section
variable (s : State)

theorem presentWrite_steady (a : LineAddr) (data : LineData) (mask : ByteMask) : Steady s (presentWrite a data mask s) := by
  unfold presentWrite; dsimp only; split
  · exact .refl s
  · exact (asmWrite_only _ _ _ _ _ _).steady.comp (.ite ((overtake_steady _ _).comp (.refl s)) (.refl s))

theorem presentRead_steady (a : LineAddr) (data : LineData) : Steady s (presentRead a data s) := by
  unfold presentRead; dsimp only; split
  · exact .refl s
  · split
    · exact .ite ((pickup_steady _ _ _).comp (.refl s)) (.refl s)
    · exact (lineRead_steady _ _ _ _).comp (.refl s)
    · exact .refl s

theorem discontinued_timing (q : Pair) : q.discontinued.timing = q.timing := by
  unfold Pair.discontinued
  split <;> rfl

theorem startDiscontinuity_steady : Steady s (startDiscontinuity s) := by
  have hpairs : Steady (flushEcho s) { flushEcho s with pairs := (startDiscontinuity s).pairs } :=
    .of_timing rfl rfl rfl fun p => by
      show ((startDiscontinuity s).pair p).timing = ((flushEcho s).pair p).timing
      rw [startDiscontinuity_pair]
      exact discontinued_timing _
  exact .comp (.refl _) (hpairs.comp (flushEcho_steady s))

theorem endDiscontinuity_steady : Steady s (endDiscontinuity s) :=
  .of_timing rfl rfl rfl fun p => by rw [endDiscontinuity_pair]; rfl

theorem columnCommand_steady (b : BankAddr) (column : BitVec 10) (op : ColumnOp) (length : BurstLength) (auto : Bool) :
    Reaches (Steady s) (exec (.columnCommand b column op length auto) s) := by
  rw [exec_columnCommand]; exact .next (.refl s)

theorem writeDataComplete_steady (which : Nat) (data : LineData) (mask : ByteMask) (dur : Bool) :
    Reaches (Steady s) (execWriteDataComplete which data mask dur s) := by
  unfold execWriteDataComplete; split
  · exact .next (.refl s)
  · exact .next (.ite ((prbTake_steady _).comp ((presentWrite_steady _ _ _ _).comp (.refl s))) (.refl s))

theorem readDataComplete_steady (which : Nat) (data : LineData) (dur : Bool) :
    Reaches (Steady s) (execReadDataComplete which data dur s) := by
  unfold execReadDataComplete; split
  · exact .next (.refl s)
  · exact .next (.ite (.ite ((prbTake_steady _).comp ((presentRead_steady _ _ _).comp (.refl s))) (.refl s)) (.refl s))

theorem probeGrant_steady : Reaches (Steady s) (execProbeGrant s) := by
  unfold execProbeGrant; dsimp only; split <;> exact .next (.refl s)

theorem probeDataReturn_steady (data : LineData) (abandoned : Bool) :
    Reaches (Steady s) (execProbeDataReturn data abandoned s) := by
  unfold execProbeDataReturn; split
  · exact .next ((prbTake_steady _).comp ((lineOutcome_steady _ _ _).comp (.refl s)))
  · exact .next (.refl s)

theorem probeGrantReleased_steady : Reaches (Steady s) (exec .probeGrantReleased s) := by
  by_cases hphase : s.tap.port.phase = .releasing
  · cases hline : s.tap.port.line with
    | some a => rw [exec_probeGrantReleased_held hphase hline]; exact .next (.refl s)
    | none =>
      rw [exec_probeGrantReleased_free hphase hline]
      exact .next ((prbTake_steady _).comp ((handOver_steady _).comp (.refl s)))
  · rw [exec_probeGrantReleased_other hphase]; exact .next (.refl s)

theorem clockStop_steady : Reaches (Steady s) (execClockStop s) := by
  unfold execClockStop; split
  · exact .next ((prbTake_steady _).comp ((abortByClock_steady _).comp (.refl s)))
  · exact .next (.refl s)

theorem returnAfterLoss_steady : Reaches (Steady s) (execReturnAfterLoss s) := by
  unfold execReturnAfterLoss; split
  · exact .next (.ite (.refl s) ((endDiscontinuity_steady _).comp ((startDiscontinuity_steady _).comp (.refl s))))
  · exact .next (.refl s)

/-! ### The part's own judgements -/

theorem corTakeRecord_steady : Reaches (Steady s) (execCorTakeRecord s) := by
  unfold execCorTakeRecord; split
  · exact .next (.refl s)
  · exact .next ((prbTake_steady _).comp ((handleRecord_steady _ _).comp (.refl s)))

theorem assemblyAbandon_steady (n : StreamIx) (slot : Nat) : Reaches (Steady s) (execAssemblyAbandon n slot s) := by
  unfold execAssemblyAbandon; split
  · exact .next (.refl s)
  · exact .next (.ite (.refl s) (.refl s))

theorem echoOverdue_steady : Reaches (Steady s) (execEchoOverdue s) := by
  unfold execEchoOverdue; split
  · exact .next (.refl s)
  · exact .next ((prbTake_steady _).comp (judgeOverdue_steady s _))

theorem holdoffRelease_steady : Reaches (Steady s) (execHoldoffRelease s) := by
  unfold execHoldoffRelease; split
  · exact .next (.ite (releaseHoldoff_steady s) (.refl s))
  · exact .next (.refl s)

theorem holdoffLimit_steady : Reaches (Steady s) (execHoldoffLimit s) := by
  unfold execHoldoffLimit; split
  · next h hv => exact .next (.ite (passLimit_steady s hv) (.refl s))
  · exact .next (.refl s)

end

/-! ### The managers' commands -/

section
variable (s : State)

theorem answer_steady (m : Manager) (c : Instr) {s : State} {out : State × Reply} (h : Steady s out.1) :
    Steady s (answer m c s out) :=
  .ite (.modLink s m _) ((Steady.modLink _ m _).comp h)

theorem takenSetStream_steady (o : SetStreamOps) : Steady s (takenSetStream o s).1 := by
  unfold takenSetStream; split
  · exact .refl s
  split
  · exact .refl s
  split
  · exact .refl s
  split <;> exact .refl s

theorem takenEnableStream_steady (b : Byte) : Steady s (takenEnableStream b s).1 := by
  unfold takenEnableStream; split
  · exact .refl s
  split
  · exact .refl s
  split <;> exact .refl s

theorem takenDisableStream_steady (b : Byte) : Steady s (takenDisableStream b s).1 := by
  unfold takenDisableStream; split
  · exact .refl s
  split
  · exact (prbTake_steady _).comp ((withdrawStream_steady _ _).comp (.refl s))
  · exact .refl s

theorem takenSetPair_steady (o : SetPairOps) : Steady s (takenSetPair o s).1 := by
  unfold takenSetPair; split
  · exact .refl s
  split
  · exact .refl s
  split
  · dsimp only
    split
    · exact .refl s
    split
    · exact .refl s
    split
    · exact .refl s
    exact recomputeT_modPair_steady _ _ s
  · exact .refl s

theorem takenEnablePair_steady (b : Byte) : Steady s (takenEnablePair b s).1 := by
  unfold takenEnablePair; split
  · exact .refl s
  split
  · exact .refl s
  split
  · exact .refl s
  exact recomputeT_modPair_steady _ _ s

theorem takenRetirePair_steady (b : Byte) : Steady s (takenRetirePair b s).1 := by
  unfold takenRetirePair; split
  · exact .refl s
  next p _ =>
  have hretired : Steady s (settleDraining p (s.modPair p Pair.retired)) :=
    (settleDraining_examined _ p).steady.comp (.modPair rfl)
  split
  · exact .refl s
  · exact .refl s
  · exact .refl s
  all_goals exact hretired

theorem takenClearPair_steady (b : Byte) : Steady s (takenClearPair b s).1 := by
  unfold takenClearPair; split
  · exact .refl s
  split
  · exact .refl s
  exact .ite ((leaveTrigger_steady _ _).comp (.modPair rfl)) (.modPair rfl)

theorem takenSetSource_steady (o : SetSourceOps) : Steady s (takenSetSource o s).1 := by
  unfold takenSetSource; split
  · exact .refl s
  · split <;> exact .refl s

theorem takenSetThreshold_steady (target v : Byte) : Steady s (takenSetThreshold target v s).1 := by
  unfold takenSetThreshold; split <;> exact .refl s

theorem takenAcknowledge_steady (m : Manager) (b : Byte) : Steady s (takenAcknowledge m b s).1 := by
  unfold takenAcknowledge; split
  · exact .refl s
  split
  · exact .refl s
  split <;> exact .refl s

/-- From FAULT to NORMAL F stays 1 (R139). -/
theorem takenClearBoard_steady : Steady s (takenClearBoard s).1 := by
  unfold takenClearBoard; split
  · next hv =>
    split
    · dsimp only [done]
      exact .modVrd rfl rfl fun g => by simp only [Vrd.factorBy, hv]
    · exact .refl s
  · exact .refl s
  · exact .refl s

theorem takenSetProbe_steady (mode : Byte) (limit : BitVec 32) : Steady s (takenSetProbe mode limit s).1 := by
  unfold takenSetProbe; split
  · exact .refl s
  · next fetch _ =>
    have hset : Steady s (State.modEcho (fun e => { e with fetchCheck := fetch, waitLimit := clampTo 1 65535 limit.toNat })
        (if s.echo.fetchCheck ∧ ¬ fetch then switchProbeOff s else s)) :=
      .comp (.refl _) (.ite (switchProbeOff_steady s) (.refl s))
    exact (prbTake_steady _).comp (.ite ((starveInHand_steady _).comp hset) hset)

theorem takenProbeLine_steady (a : BitVec 40) : Steady s (takenProbeLine a s).1 := by
  unfold takenProbeLine; split
  · exact .refl s
  split
  · exact .refl s
  exact (prbTake_steady _).comp (.refl s)

theorem takenReadStream_steady (b : Byte) : Steady s (takenReadStream b s).1 := by
  unfold takenReadStream; split <;> exact .refl s

theorem takenReadPair_steady (b : Byte) : Steady s (takenReadPair b s).1 := by
  unfold takenReadPair; split <;> exact .refl s

theorem takenReadEstimate_steady (b : Byte) : Steady s (takenReadEstimate b s).1 := by
  unfold takenReadEstimate; split <;> exact .refl s

theorem takenReadSource_steady (b : Byte) : Steady s (takenReadSource b s).1 := by
  unfold takenReadSource; split <;> exact .refl s

end

/-! ### The commands that set neither a clock nor the hold-off factor -/

/-- The commands that move a clock (R70, R72). -/
def movesClocks : Instr → Bool
  | .powerOnReset _ | .tickBoundary _ | .setTime _ _ _ | .resetPart _ => true
  | _ => false

/-- The commands that may set F by the hold-off factor of the settings: the entry to HOLDOFF and SET_VERDICT (R81). -/
def setsHoldoffFactor : Instr → Bool
  | .calmNJudgement _ | .setVerdict _ _ => true
  | _ => false

theorem exec_steady (c : Instr) (hc : movesClocks c = false) (hf : setsHoldoffFactor c = false) (s : State) :
    Reaches (Steady s) (exec c s) := by
  cases c with
  | powerOnReset | tickBoundary | setTime | resetPart => cases hc
  | calmNJudgement | setVerdict => cases hf
  | rowActivate | bankPrecharge => exact .next (.refl s)
  | rankPrecharge rank => exact .next (.of_same (modTap_clock s _) (modTap_stamp s _) (modTap_pairs s _) (modTap_vrd s _))
  | columnCommand b column op length auto => exact columnCommand_steady s b column op length auto
  | writeDataComplete which data mask dur => exact writeDataComplete_steady s which data mask dur
  | readDataComplete which data dur => exact readDataComplete_steady s which data dur
  | corTakeRecord => exact corTakeRecord_steady s
  | assemblyAbandon n slot => exact assemblyAbandon_steady s n slot
  | silence n => exact .next (.ite (.refl s) (.refl s))
  | entryExpiry p => exact .next (examineOpen_steady p s)
  | entryLoss p => exact .next (examineLate_steady p s)
  | windowEnd p => exact .next (.ite (endWindow_steady p s) (.refl s))
  | quiesceOverrun p => exact .next (.ite (overrunQuiesce_steady p s) (.refl s))
  | pulseMissed n => exact .next (.ite (missPulse_steady s n) (.refl s))
  | echoOverdue => exact echoOverdue_steady s
  | probeGrant => exact probeGrant_steady s
  | probeDataReturn data abandoned => exact probeDataReturn_steady s data abandoned
  | probeGrantReleased => exact probeGrantReleased_steady s
  | grantWaitExpiry => exact .next (.ite ((prbTake_steady _).comp (starveInHand_steady s)) (.refl s))
  | clockStop => exact clockStop_steady s
  | channelLoss => exact .next (.ite (enterLost_steady s) (.refl s))
  | clockResume => exact .next (.ite (.refl s) (.refl s))
  | returnAfterLoss => exact returnAfterLoss_steady s
  | boardResetAsserted => exact .next (.ite (.refl s) ((startDiscontinuity_steady _).comp (.refl s)))
  | boardResetReleased =>
    exact .next (.ite ((prbTake_steady _).comp ((endDiscontinuity_steady _).comp (.refl s))) (.refl s))
  | holdoffRelease => exact holdoffRelease_steady s
  | holdoffLimit => exact holdoffLimit_steady s
  | addressCharacter l | dataCharacter l | frameGapTimeout l | replyComplete l | abandonedReplyStop l =>
    exact .next (.modLink s l _)
  | readSummary l | claim l | readVerdict l | readTime l | readProbe l => exact .next (answer_steady l _ (.refl s))
  | setStream l o => exact .next (answer_steady l _ (takenSetStream_steady s o))
  | readStream l b => exact .next (answer_steady l _ (takenReadStream_steady s b))
  | enableStream l b => exact .next (answer_steady l _ (takenEnableStream_steady s b))
  | disableStream l b => exact .next (answer_steady l _ (takenDisableStream_steady s b))
  | setPair l o => exact .next (answer_steady l _ (takenSetPair_steady s o))
  | readPair l b => exact .next (answer_steady l _ (takenReadPair_steady s b))
  | enablePair l b => exact .next (answer_steady l _ (takenEnablePair_steady s b))
  | retirePair l b => exact .next (answer_steady l _ (takenRetirePair_steady s b))
  | clearPair l b => exact .next (answer_steady l _ (takenClearPair_steady s b))
  | readEstimate l b => exact .next (answer_steady l _ (takenReadEstimate_steady s b))
  | setSource l o => exact .next (answer_steady l _ (takenSetSource_steady s o))
  | readSource l b => exact .next (answer_steady l _ (takenReadSource_steady s b))
  | setThreshold l target v => exact .next (answer_steady l _ (takenSetThreshold_steady s target v))
  | acknowledge l b => exact .next (answer_steady l _ (takenAcknowledge_steady s l b))
  | clearBoard l => exact .next (answer_steady l _ (takenClearBoard_steady s))
  | setProbe l mode limit => exact .next (answer_steady l _ (takenSetProbe_steady s mode limit))
  | probeLine l a => exact .next (answer_steady l _ (takenProbeLine_steady s a))

/-! ### The commands that may set F by the hold-off factor (R81, R130, R135) -/

/-- What a command that moves no clock leaves of the clocks and the timeouts. -/
def TimeKept (s t : State) : Prop := t.clock = s.clock ∧ t.stamp = s.stamp ∧ (TimeoutsHold s → TimeoutsHold t)

theorem Steady.timeKept {s t : State} (h : Steady s t) : TimeKept s t := ⟨h.1, h.2.1, h.timeoutsHold⟩

theorem TimeKept.trans {s t u : State} (h : TimeKept s t) (k : TimeKept t u) : TimeKept s u := by
  obtain ⟨hclock, hstamp, hkept⟩ := h
  obtain ⟨kclock, kstamp, kkept⟩ := k
  exact ⟨kclock.trans hclock, kstamp.trans hstamp, kkept ∘ hkept⟩

/-- F set to the one that the verdict gives makes the timeouts hold. -/
theorem setFactor_timeKept {s t : State} {f : Nat} (hclock : t.clock = s.clock) (hstamp : t.stamp = s.stamp)
    (hf : f = t.vrd.factorBy t.vrd.settings.holdoffFactor) : TimeKept s (setFactor f t) := by
  obtain ⟨kclock, kstamp⟩ := setFactor_clocks f t
  refine ⟨kclock.trans hclock, kstamp.trans hstamp, fun _ => ?_⟩
  rw [timeoutsHold_iff, setFactor_vrd]
  exact setFactor_timedBy hf

section
variable (s : State)

/-- HOLDOFF entered, with F set to the factor of the settings (R135). -/
theorem enterHoldoff_timeKept : TimeKept s (enterHoldoff s) :=
  setFactor_timeKept rfl rfl rfl

theorem calmNJudgement_timeKept (high : Bool) : Reaches (TimeKept s) (execCalmNJudgement high s) := by
  have hsensed (v : Bool) : Steady s (s.modVrd fun x => { x with sensedHigh := v }) := .refl s
  unfold execCalmNJudgement; dsimp only; split
  · exact .next (hsensed _).timeKept
  · split
    · split
      · exact .next ((hsensed _).timeKept.trans (enterHoldoff_timeKept _))
      · exact .next (hsensed _).timeKept
    · next h hv =>
      have hjudged : Steady (s.modVrd fun x => { x with sensedHigh := high && !drivingCalm s })
          (State.modVrd (fun v => { v with verdict := .holdoff (h.judged s.clock (high && !drivingCalm s)) }) _) :=
        .modVrd rfl rfl fun g => by simp only [Vrd.factorBy, modVrd_vrd, hv]
      exact .next (hjudged.comp (hsensed _)).timeKept
    · exact .next (hsensed _).timeKept

theorem actOnLossSettings_steady (was : Bool) : Steady s (actOnLossSettings was s) := by
  have hlost : Steady s (if lossDue s then enterLost s else s) := .ite (enterLost_steady s) (.refl s)
  exact .ite (.ite ((joinTrigger_steady _ _).comp hlost) (.ite ((leaveTrigger_steady _ _).comp hlost) hlost)) hlost

theorem actOnHoldoffLimit_steady : Steady s (actOnHoldoffLimit s) := by
  unfold actOnHoldoffLimit; split
  · next h hv => exact .ite (releaseHoldoff_steady s) (.ite (passLimit_steady s hv) (.refl s))
  · exact .refl s

theorem actOnReleaseSettle_steady : Steady s (actOnReleaseSettle s) := by
  unfold actOnReleaseSettle; split
  · exact .ite (releaseHoldoff_steady s) (.refl s)
  · exact .refl s

theorem actOnFactor_clocks : (actOnFactor s).clock = s.clock ∧ (actOnFactor s).stamp = s.stamp := by
  unfold actOnFactor; split
  · split
    · exact setFactor_clocks _ s
    · exact ⟨rfl, rfl⟩
  · exact ⟨rfl, rfl⟩

/-- Whatever factor a hold-off multiplied by, the new one is in force after it was acted on (R130). -/
theorem actOnFactor_timeoutsHold {f : Nat} (h : TimedBy f s) : TimeoutsHold (actOnFactor s) := by
  obtain ⟨htimeout, hfactor⟩ := h
  unfold actOnFactor; split
  · next k hv =>
    split
    · rw [timeoutsHold_iff, setFactor_vrd]
      exact setFactor_timedBy (by simp only [Vrd.factorBy, hv])
    · next hsame =>
      refine timeoutsHold_iff.mpr ⟨htimeout, ?_⟩
      simp only [Vrd.factorBy, hv]
      exact (Decidable.not_not.mp hsame).symm
  · next hv =>
    refine timeoutsHold_iff.mpr ⟨htimeout, hfactor.trans ?_⟩
    unfold Vrd.factorBy
    split
    · next k hk => exact absurd hk (hv k)
    · rfl

theorem takenSetVerdict_timeKept (o : SetVerdictOps) : TimeKept s (takenSetVerdict o s).1 := by
  unfold takenSetVerdict; split
  · next f fence alarm _ _ _ =>
    obtain ⟨hclock, hstamp, -, htimed⟩ := (actOnReleaseSettle_steady _).comp ((actOnHoldoffLimit_steady _).comp
      (actOnLossSettings_steady (s.modVrd fun x => { x with settings := o.tuned fence alarm f })
        s.vrd.settings.fenceOnLoss))
    obtain ⟨kclock, kstamp⟩ := actOnFactor_clocks (actOnReleaseSettle (actOnHoldoffLimit
      (actOnLossSettings s.vrd.settings.fenceOnLoss (s.modVrd fun x => { x with settings := o.tuned fence alarm f }))))
    exact ⟨kclock.trans hclock, kstamp.trans hstamp, fun hs => actOnFactor_timeoutsHold _ (htimed _ hs)⟩
  · exact (Steady.refl s).timeKept

theorem setVerdict_timeKept (l : Manager) (o : SetVerdictOps) : TimeKept s (answer l (.setVerdict l o) s (takenSetVerdict o s)) := by
  obtain ⟨-, e⟩ | ⟨-, e⟩ := answer_cases l (.setVerdict l o) s (takenSetVerdict o s)
  · rw [e]; exact (Steady.modLink s l _).timeKept
  · rw [e]; exact (takenSetVerdict_timeKept s o).trans (Steady.modLink _ l _).timeKept

end

/-! ### Every command -/

theorem exec_timeKept (c : Instr) (hc : movesClocks c = false) (s : State) : Reaches (TimeKept s) (exec c s) := by
  cases hf : setsHoldoffFactor c with
  | false => exact (exec_steady c hc hf s).mono fun _ h => h.timeKept
  | true =>
    cases c with
    | calmNJudgement high => exact calmNJudgement_timeKept s high
    | setVerdict l o => exact .next (setVerdict_timeKept s l o)
    | _ => cases hf

end Sys2Proof.Machine
end

/-! ## The timeouts hold in every step, and the clocks move -/
section

namespace Sys2Proof.Machine

/-! ### The timeouts (R80 to R83, R135, R136) -/

theorem resetPart_timeoutsHold (l : Manager) {s : State} (hs : TimeoutsHold s) :
    Leads TimeoutsHold (exec (.resetPart l) s) := by
  refine .next ?_
  rw [unlessVoid]
  split
  · exact (Steady.modLink s l _).timeoutsHold hs
  · exact (((resetBlocks_atReset s).modLink l _).modLink (otherManager l) _).timeoutsHold

theorem setTime_timeoutsHold (l : Manager) (seconds : BitVec 32) (tick : BitVec 16) {s : State} (hs : TimeoutsHold s) :
    Leads TimeoutsHold (exec (.setTime l seconds tick) s) := by
  have htaken : TimeoutsHold (takenSetTime seconds tick s).1 := by
    unfold takenSetTime; split <;> exact hs
  refine .next ?_
  obtain ⟨-, e⟩ | ⟨-, e⟩ := answer_cases l (.setTime l seconds tick) s (takenSetTime seconds tick s)
  · rw [e]; exact (Steady.modLink s l _).timeoutsHold hs
  · rw [e]; exact (Steady.modLink _ l _).timeoutsHold htaken

theorem exec_timeoutsHold (c : Instr) {s : State} (hs : TimeoutsHold s) : Leads TimeoutsHold (exec c s) := by
  cases hc : movesClocks c with
  | false =>
    obtain ⟨t, ht, -, -, hkept⟩ := exec_timeKept c hc s
    rw [ht]
    exact .next (hkept hs)
  | true =>
    cases c with
    | powerOnReset straps => exact .next (powerOnReset_atReset straps _ _ _).timeoutsHold
    | tickBoundary live => exact .next hs
    | setTime l seconds tick => exact setTime_timeoutsHold l seconds tick hs
    | resetPart l => exact resetPart_timeoutsHold l hs
    | _ => cases hc

/-- Settles O12: a command that moves no clock keeps the clocks and the timeouts, and the four that move one write none of what T
is computed from, or write the reset values. -/
theorem stepKeepsTimeouts : Obligations.StepKeepsTimeouts := fun s t hs h => by
  unfold step at h
  split at h
  · cases h; exact hs
  · next c rest _ => exact exec_timeoutsHold c (s := { s with pending := rest }) hs t h

/-! ### The clocks (R70, R72, R73) -/

theorem voids_iff {m : Manager} {c : Instr} {s : State} : (s.link m).voids c = true ↔ Voided m c s := by
  unfold Link.voids Voided
  cases h : (s.link m).intake <;> simp [Intake.isHanding]

/-- A row that is not void has its owner's reply delivered to its link (R163). -/
theorem answer_taken {m : Manager} {c : Instr} {s : State} (h : ¬ Voided m c s) (out : State × Reply) :
    answer m c s out = out.1.modLink m (Link.deliver m out.1.straps.stn c out.2) :=
  unlessVoid_taken (Bool.eq_false_iff.mpr (mt voids_iff.mp h)) _

theorem exec_setTime_clocks {l : Manager} {seconds : BitVec 32} {tick : BitVec 16} {s : State}
    (h : ¬ Voided l (.setTime l seconds tick) s) :
    ∃ t, exec (.setTime l seconds tick) s = .next t ∧ t.clock = s.clock
      ∧ t.stamp = if tick.toNat ≤ 9999 then { seconds := seconds, tick := tick.toNat } else s.stamp := by
  refine ⟨_, rfl, ?_⟩
  rw [answer_taken h, modLink_clock, modLink_stamp]
  unfold takenSetTime
  by_cases htick : 9999 < tick.toNat
  · rw [if_pos htick, if_neg (Nat.not_le.mpr htick)]
    exact ⟨rfl, rfl⟩
  · rw [if_neg htick, if_pos (Nat.le_of_not_lt htick)]
    exact ⟨rfl, rfl⟩

theorem exec_resetPart_clocks {l : Manager} {s : State} (h : ¬ Voided l (.resetPart l) s) :
    ∃ t, exec (.resetPart l) s = .next t ∧ t.clock = 0 ∧ t.stamp = s.stamp := by
  refine ⟨_, rfl, ?_⟩
  rw [unlessVoid_taken (Bool.eq_false_iff.mpr (mt voids_iff.mp h)), modLink_clock, modLink_clock, modLink_stamp,
    modLink_stamp]
  exact ⟨rfl, rfl⟩

theorem exec_keepsClocks (c : Instr) (hc : movesClocks c = false) (s : State) :
    ∃ t, exec c s = .next t ∧ t.clock = s.clock ∧ t.stamp = s.stamp := by
  obtain ⟨t, ht, hclock, hstamp, -⟩ := exec_timeKept c hc s
  exact ⟨t, ht, hclock, hstamp⟩

/-- Settles O6: four commands move a clock, and every other keeps both. -/
theorem clocksMove : Obligations.ClocksMove := by
  intro c s hvoid
  cases c with
  | tickBoundary live => exact ⟨_, rfl, rfl, rfl⟩
  | powerOnReset straps => exact ⟨_, rfl, rfl, rfl⟩
  | setTime l seconds tick => exact exec_setTime_clocks (hvoid l rfl)
  | resetPart l => exact exec_resetPart_clocks (hvoid l rfl)
  | _ => exact exec_keepsClocks _ rfl s

/-! ### SET_TIME and READ_TIME (R73, R74) -/

theorem readTimeData_length (s : State) : (readTimeData s).length = 10 := by
  simp [readTimeData, b4, stampBytes, leBytes_length]

/-- Settles O59: the two outcomes of SET_TIME are the branches of its check, and READ_TIME's data is the ten bytes of R74. -/
theorem timeIsSetAndRead : Obligations.TimeIsSetAndRead := by
  intro l seconds tick s
  have hset {t : State} {st : Status} (h : takenSetTime seconds tick s = (t, Reply.plain st)) :
      Answers l (.setTime l seconds tick) s t st := by
    show Host.Outcome.next (answer l _ s (takenSetTime seconds tick s)) = _
    rw [h]
    rfl
  refine ⟨fun h => hset (if_pos h), fun h => hset (if_neg (Nat.not_lt.mpr h)), readTimeData s, rfl, readTimeData_length s, ?_⟩
  exact ⟨rfl, rfl, rfl⟩

end Sys2Proof.Machine
end

/-! ## The estimator, and the judgements that are not due -/
section

namespace Sys2Proof.Machine

/-! ### The estimator takes a sample (R77, R78) -/

/-- The quotient rounded toward zero, by the sign of the dividend. -/
theorem tdiv_two_pow (x : Int) (g : Nat) : x.tdiv (2 ^ g) = if 0 ≤ x then x / 2 ^ g else -((-x) / 2 ^ g) := by
  split
  · next h => exact Int.tdiv_eq_ediv_of_nonneg h
  · next h => rw [← Int.tdiv_eq_ediv_of_nonneg (a := -x) (by omega), Int.neg_tdiv, neg_neg]

/-- A value moved toward another by a fraction of the distance stays at or above 0 (R78). -/
theorem moved_nonneg (a b k : Nat) : 0 ≤ (a : Int) + ((b : Int) - a).tdiv (2 ^ k) := by
  have hpos : (0 : Int) < 2 ^ k := by positivity
  rcases Int.le_total (a : Int) b with h | h
  · have := Int.tdiv_nonneg (a := (b : Int) - a) (b := 2 ^ k) (by omega) hpos.le
    omega
  · have hneg : ((b : Int) - a).tdiv (2 ^ k) = -((a : Int) - b).tdiv (2 ^ k) := by rw [← Int.neg_tdiv, Int.neg_sub]
    have := Int.tdiv_le_self (a := (a : Int) - b) (2 ^ k) (by omega)
    omega

theorem update_first {d : PairDesc} {e : Estimator} (l : Nat) (h : e.n = 0) :
    e.update d l = { m16 := 16 * l, d16 := 8 * l, n := 1, lastSample := some l } := by
  unfold Estimator.update
  dsimp only
  rw [if_pos h, Estimator.mk.injEq]
  exact ⟨by omega, by omega, rfl, rfl⟩

section
variable {d : PairDesc} {e : Estimator} (l : Nat) (h : e.n ≠ 0)
include h

theorem update_later : e.update d l =
    { m16 := ((e.m16 : Int) + (((l * 16 : Nat) : Int) - e.m16).tdiv (2 ^ d.gm)).toNat
      d16 := ((e.d16 : Int) + (((((l * 16 : Nat) : Int) - e.m16).natAbs : Int) - e.d16).tdiv (2 ^ d.gd)).toNat
      n := min (e.n + 1) 255
      lastSample := some l } := if_neg h

theorem update_later_m16 :
    ((e.update d l).m16 : Int) = (e.m16 : Int) + (16 * (l : Int) - e.m16).tdiv (2 ^ d.gm) := by
  rw [update_later l h, Int.toNat_of_nonneg (moved_nonneg _ _ _), Nat.cast_mul, mul_comm (l : Int), Nat.cast_ofNat]

theorem update_later_d16 :
    ((e.update d l).d16 : Int) = (e.d16 : Int) + (|16 * (l : Int) - e.m16| - e.d16).tdiv (2 ^ d.gd) := by
  rw [update_later l h, Int.toNat_of_nonneg (moved_nonneg _ _ _), Int.natCast_natAbs, Nat.cast_mul, mul_comm (l : Int),
    Nat.cast_ofNat]

/-- M16 and D16 stay within 16 times the largest sample (R78). -/
theorem update_later_le (hl : l ≤ 1048575) (hm : e.m16 ≤ 16777200) (hd : e.d16 ≤ 16777200) :
    (e.update d l).m16 ≤ 16777200 ∧ (e.update d l).d16 ≤ 16777200 := by
  rw [update_later l h]
  exact ⟨moved_le hm (by omega), moved_le hd (by omega)⟩

end

/-! ### T is computed (R79, R80) -/

/-- The base is the least whole number of ticks that 16 of which reach M16 + k × D16 (R80). -/
theorem estimateBase_roundsUp (d : PairDesc) (e : Estimator) :
    16 * estimateBase d e < e.m16 + d.k * e.d16 + 16 ∧ e.m16 + d.k * e.d16 ≤ 16 * estimateBase d e := by
  unfold estimateBase
  omega

theorem clampTo_eq {lo hi : Nat} (h : lo ≤ hi) (v : Nat) :
    clampTo lo hi v = if v < lo then lo else if hi < v then hi else v := by
  unfold clampTo
  split_ifs <;> omega

theorem timeoutOf_arming {d : PairDesc} {e : Estimator} (h : e.n < d.armingCount) (f : Nat) :
    timeoutOf d e f = d.tceil * f := if_pos (decide_eq_true h)

theorem timeoutOf_armed {d : PairDesc} {e : Estimator} (h : ¬ e.n < d.armingCount) (f : Nat) :
    timeoutOf d e f = clampedBase d e * f := if_neg (by simpa [arming] using h)

/-- T lies between Tfloor and Tceil, each times F (R80). -/
theorem timeoutOf_between {d : PairDesc} (h : d.tfloor ≤ d.tceil) (e : Estimator) (f : Nat) :
    d.tfloor * f ≤ timeoutOf d e f ∧ timeoutOf d e f ≤ d.tceil * f := by
  by_cases ha : e.n < d.armingCount
  · rw [timeoutOf_arming ha]
    exact ⟨Nat.mul_le_mul_right f h, le_rfl⟩
  · rw [timeoutOf_armed ha]
    obtain ⟨hlo, hhi⟩ := clampTo_range h (estimateBase d e)
    exact ⟨Nat.mul_le_mul_right f hlo, Nat.mul_le_mul_right f hhi⟩

/-- Settles O42: the model's truncated quotients are the statement's, and its clamp the statement's chain of cases. -/
theorem estimatorAndTimeout : Obligations.EstimatorAndTimeout := by
  constructor
  · intro d e l hl
    refine ⟨update_first l, fun hn hm hd => ⟨?_, ?_, ?_, ?_, update_later_le l hn hl hm hd⟩⟩
    · rw [update_later_m16 l hn, tdiv_two_pow]
    · rw [update_later_d16 l hn, tdiv_two_pow]
    · rw [update_later l hn]
    · rw [update_later l hn]
  · intro d e f h
    obtain ⟨hbelow, hreached⟩ := estimateBase_roundsUp d e
    refine ⟨estimateBase d e, hbelow, hreached, ?_, timeoutOf_between h e f⟩
    by_cases ha : e.n < d.armingCount
    · rw [if_pos ha, timeoutOf_arming ha]
    · rw [if_neg ha, timeoutOf_armed ha, clampedBase, clampTo_eq h, ite_mul, ite_mul]

/-! ### Judgements that are not due (R71) -/

section
variable {s : State}

theorem examineOpen_notDue {p : PairIx} (h : expiryDue s p = false) : examineOpen p s = s := by
  cases ha : (s.pair p).health.active with
  | false => exact examineOpen_inactive ha
  | true =>
    refine examineOpen_rests fun e he => ?_
    obtain ⟨rest, hlist⟩ := List.head?_eq_some_iff.mp he
    simpa [expiryDue, hlist, ha] using h

/-- A DRAINING pair holds an entry, so that no drain ends (R47). -/
theorem settleDraining_occupied {p : PairIx} (hs : EntriesHold s) : settleDraining p s = s := by
  obtain ⟨-, hoccupied, -⟩ := hs p
  refine if_neg fun ⟨hd, hopen, hlate⟩ => ?_
  have := hoccupied hd
  rw [Pair.entryCount, hopen, hlate] at this
  exact absurd this (Nat.lt_irrefl 0)

theorem examineLate_notDue {p : PairIx} (hs : EntriesHold s) (h : entryLossDue s p = false) : examineLate p s = s := by
  cases ha : (s.pair p).health.active with
  | false => exact examineLate_inactive ha
  | true =>
    refine (examineLate_rests fun e he => ?_).trans (settleDraining_occupied hs)
    obtain ⟨rest, hlist⟩ := List.head?_eq_some_iff.mp he
    simpa [entryLossDue, hlist, ha] using h

theorem modLink_unchanged {m : Manager} {f : Link → Link} (h : f (s.link m) = s.link m) : s.modLink m f = s := by
  cases m with
  | A => exact congrArg (fun l => { s with linkA := l }) h
  | B => exact congrArg (fun l => { s with linkB := l }) h

/-- The gap of a link that is neither RECEIVING nor SKIPPING is no event (R161). -/
theorem gapTimeout_notDue {m : Manager} (h : linkGapDue s m = false) :
    (if gapDue s.clock (s.link m) then (s.link m).gapTimeout else s.link m) = s.link m := by
  split
  · next hgap =>
    unfold linkGapDue at h
    unfold Link.gapTimeout
    cases hi : (s.link m).intake <;> simp_all
  · rfl

theorem corTakeRecord_notDue (h : s.commitQueue = []) : execCorTakeRecord s = .next s := by
  unfold execCorTakeRecord
  rw [h]

theorem assemblyAbandon_notDue {n : StreamIx} {slot : Nat} (h : slotAbandonDue s n slot = false) :
    execAssemblyAbandon n slot s = .next s := by
  unfold execAssemblyAbandon
  unfold slotAbandonDue at h
  split
  · rfl
  · next a ha =>
    rw [ha] at h
    simp only [h]
    rfl

theorem echoOverdue_notDue (h : s.echo.entries.find? (EchoEntry.overdue s) = none) : execEchoOverdue s = .next s := by
  unfold execEchoOverdue
  rw [h]

theorem holdoffRelease_notDue (h : holdoffReleaseDue s = false) : execHoldoffRelease s = .next s := by
  unfold execHoldoffRelease
  unfold holdoffReleaseDue at h
  split
  · next k hk =>
    rw [hk] at h
    simp only [h]
    rfl
  · rfl

theorem holdoffLimit_notDue (h : holdoffLimitDue s = false) : execHoldoffLimit s = .next s := by
  unfold execHoldoffLimit
  unfold holdoffLimitDue at h
  split
  · next k hk =>
    rw [hk] at h
    simp only [h]
    rfl
  · rfl

/-- A meaning that tests its event, when the event is not due. -/
theorem next_notDue {c : Bool} (t : State) (h : c = false) :
    (Host.Outcome.next (if c then t else s) : Host.Outcome State Fault Refusal) = .next s := by
  rw [h]
  rfl

end

/-- Settles O8, row by row; only the loss of a late entry needs that a DRAINING pair holds an entry. -/
theorem notDueChangesNothing : Obligations.NotDueChangesNothing := by
  intro c s hs ht h
  cases c with
  | corTakeRecord => exact corTakeRecord_notDue (by simpa [dueNow] using h)
  | assemblyAbandon n slot => exact assemblyAbandon_notDue h
  | silence n => exact next_notDue _ h
  | entryExpiry p => exact congrArg Host.Outcome.next (examineOpen_notDue h)
  | entryLoss p => exact congrArg Host.Outcome.next (examineLate_notDue hs h)
  | windowEnd p => exact next_notDue _ h
  | quiesceOverrun p => exact next_notDue _ h
  | pulseMissed n => exact next_notDue _ h
  | echoOverdue => exact echoOverdue_notDue (Option.isSome_eq_false_iff.mp h |> Option.isNone_iff_eq_none.mp)
  | grantWaitExpiry => exact next_notDue _ h
  | channelLoss => exact next_notDue _ h
  | holdoffRelease => exact holdoffRelease_notDue h
  | holdoffLimit => exact holdoffLimit_notDue h
  | frameGapTimeout m => exact congrArg Host.Outcome.next (modLink_unchanged (gapTimeout_notDue h))
  | _ => cases ht

end Sys2Proof.Machine
end

/-! ## What an event leaves that is not about health, triggers or pulses -/
section

namespace Sys2Proof.Machine

/-! ### One pair, one stream, the echo part -/

/-- What the HEV keeps of a pair agrees with its health, where BRST_N is judged `brst` (R88, R92, R100, R102, R103). -/
def Pair.Sound (brst : Bool) (q : Pair) : Prop :=
  q.hev.window.isSome = q.health.enabled
    ∧ (∀ w, q.hev.window = some w → w.held = brst)
    ∧ q.hev.quiesceStart.isSome = decide (q.health = .quiesced)
    ∧ (q.health ≠ .suspect → q.hev.confirm = 0 ∧ q.hev.promotionPending = false)
    ∧ q.hev.history.length ≤ 3

theorem healthHolds_iff {s : State} : HealthHolds s ↔ ∀ p, (s.pair p).Sound s.tap.brstAsserted := Iff.rfl

/-- A pair's fence trigger stands (R96). -/
def Pair.fences (q : Pair) : Bool := decide (q.health = .failed) && q.desc.fence

/-- A pair holds no entry. -/
def Pair.Bare (q : Pair) : Prop := q.openList = [] ∧ q.lateList = []

/-- The echo list and the probe queue are empty, and the PRB is IDLE. -/
def Echo.Bare (e : Echo) : Prop := e.entries = [] ∧ e.probeQueue = [] ∧ e.prb = .idle

/-- What an event leaves in `r` of the pair `q` that does not move its health: a drain may end, and a running window counts. Where
the part is to be `still`, the event brings no entry. -/
structure Pair.Undisturbed (still : Prop) (q r : Pair) : Prop where
  desc : r.desc = q.desc
  health : r.health = q.health ∨ q.health = .draining ∧ r.health = .disabled
  hev : r.hev = { q.hev with window := r.hev.window }
  held : r.hev.window.map EvalWindow.held = q.hev.window.map EvalWindow.held
  bare : still → q.Bare → r.Bare

namespace Pair.Undisturbed

variable {still : Prop} {q r u : Pair}

theorem refl (still : Prop) (q : Pair) : q.Undisturbed still q := ⟨rfl, .inl rfl, rfl, rfl, fun _ => id⟩

theorem trans (h : q.Undisturbed still r) (k : r.Undisturbed still u) : q.Undisturbed still u where
  desc := k.desc.trans h.desc
  health := by
    rcases k.health with a | ⟨a, b⟩
    · rw [a]; exact h.health
    · rcases h.health with c | ⟨-, d⟩
      · exact .inr ⟨c ▸ a, b⟩
      · rw [d] at a; cases a
  hev := by rw [k.hev, h.hev]
  held := k.held.trans h.held
  bare hb := k.bare hb ∘ h.bare hb

/-- A pair whose entries and counters alone have changed. -/
theorem lists (hdesc : r.desc = q.desc) (hhealth : r.health = q.health) (hhev : r.hev = q.hev)
    (hbare : still → q.Bare → r.Bare) : q.Undisturbed still r :=
  ⟨hdesc, .inl hhealth, by rw [hhev], by rw [hhev], hbare⟩

theorem enabled (h : q.Undisturbed still r) : r.health.enabled = q.health.enabled := by
  rcases h.health with e | ⟨a, b⟩
  · rw [e]
  · rw [a, b]; rfl

theorem health_iff (h : q.Undisturbed still r) {x : Health} (h1 : x ≠ .draining) (h2 : x ≠ .disabled) :
    r.health = x ↔ q.health = x := by
  rcases h.health with e | ⟨a, b⟩
  · rw [e]
  · rw [a, b]; exact ⟨fun k => absurd k.symm h2, fun k => absurd k.symm h1⟩

theorem fences (h : q.Undisturbed still r) : r.fences = q.fences := by
  rw [Pair.fences, Pair.fences, h.desc, decide_eq_decide.mpr (h.health_iff (by decide) (by decide))]

theorem pending (h : q.Undisturbed still r) : r.hev.promotionPending = q.hev.promotionPending := by rw [h.hev]

theorem sound {brst : Bool} (h : q.Undisturbed still r) (hq : q.Sound brst) : r.Sound brst := by
  obtain ⟨hwindow, hheld, hquiesce, hsuspect, hhistory⟩ := hq
  have hmap := h.held
  refine ⟨?_, fun w hw => ?_, ?_, fun hr => ?_, ?_⟩
  · rw [h.enabled, ← hwindow, ← Option.isSome_map (f := EvalWindow.held), hmap, Option.isSome_map]
  · rw [hw, Option.map_some] at hmap
    obtain ⟨v, hv, e⟩ := Option.map_eq_some_iff.mp hmap.symm
    exact e ▸ hheld v hv
  · rw [h.hev, hquiesce]
    exact decide_eq_decide.mpr (h.health_iff (by decide) (by decide)).symm
  · rw [h.hev]
    exact hsuspect fun k => hr ((h.health_iff (by decide) (by decide)).mpr k)
  · rw [h.hev]
    exact hhistory

end Pair.Undisturbed

theorem SameButWindow.undisturbed {q r : Pair} (h : SameButWindow q r) (still : Prop) : q.Undisturbed still r := by
  obtain ⟨hrest, hsome, hkept⟩ := h
  have hheld : r.hev.window.map EvalWindow.held = q.hev.window.map EvalWindow.held := by
    cases hq : q.hev.window with
    | none =>
      rw [hq] at hsome
      rw [Option.isNone_iff_eq_none.mp (Option.isSome_eq_false_iff.mp hsome)]
    | some w =>
      rw [hq] at hsome
      obtain ⟨v, hv⟩ := Option.isSome_iff_exists.mp hsome
      obtain ⟨e, -⟩ := hkept w v hq hv
      rw [hv, Option.map_some, Option.map_some, e]
  refine ⟨by rw [hrest], .inl (by rw [hrest]), by rw [hrest], hheld, fun _ => ?_⟩
  rw [hrest]; exact id

theorem drained_undisturbed (still : Prop) (q : Pair) : q.Undisturbed still q.drained := by
  unfold Pair.drained; split
  · next h => exact ⟨rfl, .inr ⟨h.1, rfl⟩, rfl, rfl, fun _ => id⟩
  · exact .refl still q

/-- What an event leaves in `y` of the stream `x` that is not about its pulses or its configuration. Where the part is
to be `still`, the event opens no assembly. -/
structure Stream.Undisturbed (still : Prop) (x y : Stream) : Prop where
  desc : y.desc = x.desc
  enabled : y.enabled = x.enabled
  pulse : y.pulse = x.pulse
  bare : still → x.assemblies = [] → y.assemblies = []

theorem Stream.Undisturbed.refl (still : Prop) (x : Stream) : x.Undisturbed still x := ⟨rfl, rfl, rfl, fun _ => id⟩

theorem Stream.Undisturbed.trans {still : Prop} {x y z : Stream} (h : x.Undisturbed still y) (k : y.Undisturbed still z) :
    x.Undisturbed still z where
  desc := k.desc.trans h.desc
  enabled := k.enabled.trans h.enabled
  pulse := k.pulse.trans h.pulse
  bare hb := k.bare hb ∘ h.bare hb

/-! ### The whole part -/

/-- What an event leaves that moves no health, no trigger, no pulse state and no configuration. Where the part is to be `still`, it
brings in no traffic: no assembly, no record, no entry and no line. -/
structure Undisturbed (still : Prop) (s t : State) : Prop where
  brst : t.tap.brstAsserted = s.tap.brstAsserted
  loss : lossStands t = lossStands s
  fault : t.vrd.verdict = .fault ↔ s.vrd.verdict = .fault
  triggers : t.vrd.triggers = s.vrd.triggers
  fenceOnLoss : t.vrd.settings.fenceOnLoss = s.vrd.settings.fenceOnLoss
  pair : ∀ p, (s.pair p).Undisturbed still (t.pair p)
  stream : ∀ n, (s.stream n).Undisturbed still (t.stream n)
  queue : ∀ r ∈ t.commitQueue, r ∈ s.commitQueue ∨ (s.stream r.stream).enabled = true ∧ ¬ still
  echo : still → s.echo.Bare → t.echo.Bare

namespace Undisturbed

variable {still : Prop} {s t u : State}

theorem refl (s : State) : Undisturbed still s s :=
  ⟨rfl, rfl, Iff.rfl, rfl, rfl, fun _ => .refl _ _, fun _ => .refl _ _, fun _ => .inl, fun _ => id⟩

theorem trans (h : Undisturbed still s t) (k : Undisturbed still t u) : Undisturbed still s u where
  brst := k.brst.trans h.brst
  loss := k.loss.trans h.loss
  fault := k.fault.trans h.fault
  triggers := k.triggers.trans h.triggers
  fenceOnLoss := k.fenceOnLoss.trans h.fenceOnLoss
  pair p := (h.pair p).trans (k.pair p)
  stream n := (h.stream n).trans (k.stream n)
  queue r hr := by
    rcases k.queue r hr with h1 | ⟨h1, h2⟩
    · exact h.queue r h1
    · exact .inr ⟨(h.stream _).enabled ▸ h1, h2⟩
  echo hb := k.echo hb ∘ h.echo hb

/-- The operation done last first, as a meaning writes it. -/
theorem comp (k : Undisturbed still t u) (h : Undisturbed still s t) : Undisturbed still s u := h.trans k

theorem ite {c : Prop} [Decidable c] (h : Undisturbed still s t) (k : Undisturbed still s u) :
    Undisturbed still s (if c then t else u) := by
  split
  · exact h
  · exact k

theorem foldl {γ : Type} {f : State → γ → State} (hf : ∀ t a, Undisturbed still t (f t a)) (l : List γ) (s : State) :
    Undisturbed still s (l.foldl f s) :=
  foldl_keeps (P := Undisturbed still s) (fun t a h => h.trans (hf t a)) l (refl s)

/-- Nothing has changed that the supervision reads. -/
theorem same (hbrst : t.tap.brstAsserted = s.tap.brstAsserted := by rfl) (hpresence : t.tap.presence = s.tap.presence := by rfl)
    (hverdict : t.vrd.verdict = s.vrd.verdict := by rfl) (htriggers : t.vrd.triggers = s.vrd.triggers := by rfl)
    (hsettings : t.vrd.settings = s.vrd.settings := by rfl) (hpairs : t.pairs = s.pairs := by rfl)
    (hstreams : t.streams = s.streams := by rfl) (hqueue : t.commitQueue = s.commitQueue := by rfl)
    (hecho : t.echo.Bare ↔ s.echo.Bare := by rfl) : Undisturbed still s t where
  brst := hbrst
  loss := by rw [lossStands, lossStands, hpresence]
  fault := by rw [hverdict]
  triggers := htriggers
  fenceOnLoss := by rw [hsettings]
  pair p := by rw [State.pair, State.pair, hpairs]; exact .refl _ _
  stream n := by rw [State.stream, State.stream, hstreams]; exact .refl _ _
  queue r hr := .inl (hqueue ▸ hr)
  echo _ := hecho.mpr

theorem post (i : SourceIx) (c : Cause) (s : State) : Undisturbed still s (post i c s) := same

theorem modPort (f : ProbePort → ProbePort) (s : State) : Undisturbed still s (s.modPort f) := same

theorem modLink (s : State) (m : Manager) (f : Link → Link) : Undisturbed still s (s.modLink m f) := by
  cases m <;> exact same

theorem modTap {f : Tap → Tap} (hbrst : (f s.tap).brstAsserted = s.tap.brstAsserted)
    (hpresence : (f s.tap).presence = s.tap.presence) : Undisturbed still s (s.modTap f) := same hbrst hpresence

theorem modEcho {f : Echo → Echo} (h : still → s.echo.Bare → (f s.echo).Bare) :
    Undisturbed still s (s.modEcho f) := { refl s with echo := h }

theorem modStream {n : StreamIx} {f : Stream → Stream}
    (h : (s.stream n).Undisturbed still (f (s.stream n))) : Undisturbed still s (s.modStream n f) :=
  { refl s with
    stream := fun m => by
      rw [modStream_place]
      split
      · next e => subst e; exact h
      · exact .refl _ _ }

/-- The pairs and the incident sources alone have changed. -/
theorem pairs (ht : PairsAndSources s t) (h : ∀ p, (s.pair p).Undisturbed still (t.pair p)) :
    Undisturbed still s t := by
  unfold PairsAndSources at ht
  rw [ht] at h ⊢
  exact { refl s with pair := h }

theorem atPair {p : PairIx} (ht : PairsAndSources s t) (ho : OtherPairs p s t)
    (h : (s.pair p).Undisturbed still (t.pair p)) : Undisturbed still s t :=
  pairs ht fun r => by
    by_cases hr : r = p
    · exact hr ▸ h
    · rw [ho r hr]; exact .refl _ _

theorem modPair {p : PairIx} {f : Pair → Pair} (h : (s.pair p).Undisturbed still (f (s.pair p))) :
    Undisturbed still s (s.modPair p f) :=
  atPair (p := p) rfl (fun _ hr => modPair_other s hr f) (by rwa [modPair_same])

/-- The entries and the counters of one pair have changed. -/
theorem modLists {p : PairIx} {f : Pair → Pair} (hdesc : (f (s.pair p)).desc = (s.pair p).desc)
    (hhealth : (f (s.pair p)).health = (s.pair p).health) (hhev : (f (s.pair p)).hev = (s.pair p).hev)
    (hbare : still → (s.pair p).Bare → (f (s.pair p)).Bare) : Undisturbed still s (s.modPair p f) :=
  modPair (.lists hdesc hhealth hhev hbare)

end Undisturbed

theorem FindingOnly.undisturbed {still : Prop} {p : PairIx} {s t : State} (h : FindingOnly p s t) : Undisturbed still s t :=
  .atPair h.frame h.others (h.here.undisturbed _)

end Sys2Proof.Machine
end

/-! ## The operations that move no health, no trigger and no pulse state -/
section

namespace Sys2Proof.Machine

/-! ### The heads of the lists, and the timeouts (R62, R63, R80 to R83) -/

section
variable {still : Prop} (p : PairIx) (s : State)

theorem pairedEvent_undisturbed : Undisturbed still s (pairedEvent p s) := (pairedEvent_windowOnly s p).finding.undisturbed

theorem settleDraining_undisturbed : Undisturbed still s (settleDraining p s) := by
  rw [settleDraining_eq]
  exact .modPair (drained_undisturbed _ _)

theorem examineOpen_undisturbed : Undisturbed still s (examineOpen p s) := by
  cases ha : (s.pair p).health.active with
  | true =>
    rw [examineOpen_active ha]
    exact .comp (foldl_finding _ p (expiryFinding_only · p ·) _).undisturbed
      (.modLists rfl rfl rfl fun _ ⟨ho, hl⟩ => by simp [Pair.Bare, Pair.headsExpired, ho, hl])
  | false => rw [examineOpen_inactive ha]; exact .refl s

theorem examineLate_undisturbed : Undisturbed still s (examineLate p s) := by
  cases ha : (s.pair p).health.active with
  | true =>
    rw [examineLate_active ha]
    exact (settleDraining_undisturbed p _).comp (.comp (foldl_finding _ p (lossFinding_only · p ·) _).undisturbed
      (.modLists rfl rfl rfl fun _ ⟨ho, hl⟩ => by simp [Pair.Bare, Pair.headsLost, ho, hl]))
  | false => rw [examineLate_inactive ha]; exact .refl s

theorem recomputeT_undisturbed : Undisturbed still s (recomputeT p s) :=
  .ite (.refl s) ((examineLate_undisturbed p _).comp ((examineOpen_undisturbed p _).comp
    (.modLists rfl rfl rfl fun _ => id)))

theorem setFactor_undisturbed (f : Nat) : Undisturbed still s (setFactor f s) :=
  .comp (.foldl (fun t r => recomputeT_undisturbed r t) allPairs _) .same

theorem takeSample_undisturbed (l : Nat) : Undisturbed still s (takeSample p l s) :=
  (recomputeT_undisturbed p _).comp (.modLists rfl rfl rfl fun _ => id)

end

/-! ### The Echo Checker and the Probe Engine (section 7) -/

section
variable {still : Prop} (s : State)

theorem handOver_undisturbed : Undisturbed still s (handOver s) := by
  unfold handOver; split
  · exact .ite (.modPort _ s) (.refl s)
  · exact .refl s

theorem giveUpLine_undisturbed : Undisturbed still s (giveUpLine s) := by
  unfold giveUpLine; split
  · exact .refl s
  · exact .comp (.modEcho fun _ ⟨he, hq, _⟩ => ⟨he, hq, rfl⟩) (.modPort _ s)
  · next l hl => exact .modEcho fun _ ⟨_, _, hi⟩ => by rw [hl] at hi; cases hi

theorem giveUpIf_undisturbed (k : Purpose) : Undisturbed still s (giveUpIf k s) := .ite (giveUpLine_undisturbed s) (.refl s)

theorem modEntry_undisturbed (e : EchoEntry) (f : EchoEntry → EchoEntry) : Undisturbed still s (modEntry e f s) :=
  .modEcho fun _ ⟨he, hq, hi⟩ => ⟨by rw [he]; rfl, hq, hi⟩

theorem countEcho_undisturbed (f : EchoCounters → EchoCounters) : Undisturbed still s (countEcho f s) := .modEcho fun _ => id

theorem retireEntry_undisturbed (e : EchoEntry) : Undisturbed still s (retireEntry e s) := by
  have hout : Undisturbed still s (s.modEcho fun x =>
      { x with
        entries := x.entries.erase e
        probeQueue := if e.status = .queued then x.probeQueue.erase e.key else x.probeQueue }) :=
    .modEcho fun _ ⟨he, hq, hi⟩ => ⟨by rw [he]; rfl, by simp [hq], hi⟩
  exact .ite ((giveUpIf_undisturbed _ _).comp hout) hout

theorem echoFinding_undisturbed (p : PairIx) (c : Cause) : Undisturbed still s (echoFinding p c s) :=
  (echoFinding_finding s p c).undisturbed

theorem compareEntry_undisturbed (e : EchoEntry) : Undisturbed still s (compareEntry e s) :=
  .ite (.ite ((countEcho_undisturbed _ _).comp (retireEntry_undisturbed s e)) ((echoFinding_undisturbed _ _ _).comp
    ((countEcho_undisturbed _ _).comp (retireEntry_undisturbed s e)))) (.refl s)

theorem entryRead_undisturbed (e : EchoEntry) (i : Nat) (d : LineData) : Undisturbed still s (entryRead e i d s) :=
  .ite ((compareEntry_undisturbed _ _).comp (modEntry_undisturbed s e _)) (.refl s)

theorem lineRead_undisturbed (k : SlotKey) (i : Nat) (d : LineData) : Undisturbed still s (lineRead k i d s) := by
  unfold lineRead; split
  · exact .refl s
  · exact entryRead_undisturbed s _ i d

theorem overtake_undisturbed (k : SlotKey) : Undisturbed still s (overtake k s) := by
  unfold overtake; split
  · exact .refl s
  · exact (countEcho_undisturbed _ _).comp (retireEntry_undisturbed s _)

theorem dropOldest_undisturbed : Undisturbed still s (dropOldest s) := by
  unfold dropOldest; split
  · exact .refl s
  · exact .ite (.refl s) (.comp (.post _ _ _) ((countEcho_undisturbed _ _).comp (retireEntry_undisturbed s _)))

theorem endSingle_undisturbed (o : SingleOutcome) : Undisturbed still s (endSingle o s) := by
  unfold endSingle; split
  · exact .modEcho fun _ => id
  · exact .refl s

theorem starveLine_undisturbed (l : LineInHand) : Undisturbed still s (starveLine l s) := by
  unfold starveLine; split
  · exact endSingle_undisturbed s _
  · split
    · exact .refl s
    · exact (echoFinding_undisturbed _ _ _).comp ((countEcho_undisturbed _ _).comp (retireEntry_undisturbed s _))

theorem starveInHand_undisturbed : Undisturbed still s (starveInHand s) := by
  unfold starveInHand; split
  · exact (starveLine_undisturbed _ _).comp (giveUpLine_undisturbed s)
  · exact .refl s

theorem prbIdle_undisturbed : Undisturbed still s (s.modEcho fun e => { e with prb := .idle }) :=
  .modEcho fun _ ⟨he, hq, _⟩ => ⟨he, hq, rfl⟩

theorem abortByClock_undisturbed : Undisturbed still s (abortByClock s) := by
  have h := (prbIdle_undisturbed (still := still) _).comp (.modPort ProbePort.abort s)
  unfold abortByClock; dsimp only; refine .ite ?_ (.refl s)
  split
  · exact h
  · exact (starveLine_undisturbed _ _).comp h
  · exact .ite h ((starveLine_undisturbed _ _).comp h)

theorem lineOutcome_undisturbed (v : Bool) (d : LineData) : Undisturbed still s (lineOutcome v d s) := by
  have h := prbIdle_undisturbed (still := still) s
  unfold lineOutcome; split
  · dsimp only
    refine .ite h ?_
    split
    · exact (endSingle_undisturbed _ _).comp h
    · refine .ite h ?_
      split
      · exact h
      · exact (entryRead_undisturbed _ _ _ _).comp h
  · exact .refl s

theorem switchProbeOff_undisturbed : Undisturbed still s (switchProbeOff s) := by
  have h := Undisturbed.comp (.modEcho (f := fun x =>
      { x with entries := x.entries.filter (fun e => decide (e.status = .watching)), probeQueue := [] })
    fun _ ⟨he, _, hi⟩ => ⟨by rw [he]; rfl, rfl, hi⟩) (giveUpIf_undisturbed (still := still) s .currentEntry)
  unfold switchProbeOff; dsimp only; split
  · exact (endSingle_undisturbed _ _).comp ((giveUpIf_undisturbed _ _).comp h)
  · exact h

theorem withdrawStream_undisturbed (n : StreamIx) : Undisturbed still s (withdrawStream n s) :=
  .foldl (fun t e => (countEcho_undisturbed _ _).comp (retireEntry_undisturbed t e)) _ s

theorem flushEcho_undisturbed : Undisturbed still s (flushEcho s) :=
  (endSingle_undisturbed _ _).comp (.modEcho fun _ _ => ⟨rfl, rfl, rfl⟩)

end

/-! Where the part need not be still, the echo part may take in what it will. -/

section
variable {still : Prop} {s : State} (hb : ¬ still)
include hb

theorem modEcho_traffic (f : Echo → Echo) : Undisturbed still s (s.modEcho f) :=
  .modEcho fun k => absurd k hb

theorem takeLine_undisturbed (l : LineInHand) : Undisturbed still s (takeLine l s) :=
  (handOver_undisturbed _).comp (modEcho_traffic hb _)

theorem takeQueueHead_undisturbed : Undisturbed still s (takeQueueHead s) := by
  unfold takeQueueHead; split
  · exact .refl s
  · exact modEcho_traffic hb _

theorem takeEntryLine_undisturbed : Undisturbed still s (takeEntryLine s) := by
  unfold takeEntryLine; split
  · exact .refl s
  · split
    · exact .refl s
    · exact takeLine_undisturbed hb _

theorem appendEcho_undisturbed (p : PairIx) (r : Record) : Undisturbed still s (appendEcho p r s) := by
  exact .ite (countEcho_undisturbed s _) ((modEcho_traffic hb _).comp (dropOldest_undisturbed s))

theorem judgeOverdue_undisturbed (e : EchoEntry) : Undisturbed still s (judgeOverdue e s) := by
  have hcount := countEcho_undisturbed (still := still) s fun c => { c with unread := satInc c.unread }
  have hentry := (modEntry_undisturbed _ e fun e => { e with status := .queued }).comp hcount
  exact (echoFinding_undisturbed _ _ _).comp
    (.ite ((modEcho_traffic hb _).comp hentry) ((retireEntry_undisturbed _ e).comp hcount))

end

/-- The PRB takes a line only while BRST_N is released (R119). -/
theorem prbTake_undisturbed {still : Prop} {s t : State} (hb : still → s.tap.brstAsserted = true)
    (h : Undisturbed still s t) : Undisturbed still s (prbTake t) := by
  unfold prbTake; split
  · exact h
  next hreleased =>
  have hb : ¬ still := fun k => hreleased (.inr (h.brst.trans (hb k)))
  split
  · exact (takeLine_undisturbed hb _).comp h
  · exact .ite ((takeEntryLine_undisturbed hb).comp h)
      ((takeEntryLine_undisturbed hb).comp ((takeQueueHead_undisturbed hb).comp h))

/-! ### Commits (R29 to R36) -/

/-- A stream changed in its assemblies, its sequence state or its counters. -/
theorem modStream_traffic {still : Prop} {s : State} (hb : ¬ still) {n : StreamIx} {f : Stream → Stream}
    (hdesc : (f (s.stream n)).desc = (s.stream n).desc) (henabled : (f (s.stream n)).enabled = (s.stream n).enabled)
    (hpulse : (f (s.stream n)).pulse = (s.stream n).pulse) : Undisturbed still s (s.modStream n f) :=
  .modStream ⟨hdesc, henabled, hpulse, fun k => absurd k hb⟩

section
variable {still : Prop} {s : State} (hb : ¬ still)
include hb

theorem dropRecord_undisturbed (n : StreamIx) (c : Cause) : Undisturbed still s (dropRecord n c s) :=
  .comp (.post _ _ _) (modStream_traffic hb rfl rfl rfl)

theorem countGap_undisturbed (n : StreamIx) (g : BitVec 32) : Undisturbed still s (countGap n g s) :=
  .comp (.post _ _ _) (modStream_traffic hb rfl rfl rfl)

/-- A record of an enabled stream is offered to the queue. -/
theorem offerRecord_undisturbed (r : Record) (hen : (s.stream r.stream).enabled = true) :
    Undisturbed still s (offerRecord r s) := by
  refine .ite ?_ (.comp (.post _ _ _) (modStream_traffic hb rfl rfl rfl))
  have h := modStream_traffic (s := s) hb (n := r.stream) (f := fun x => { x with overrunPending := false }) rfl rfl rfl
  exact { h with
    queue := fun q hq => by
      rcases List.mem_append.mp hq with h | h
      · exact .inl h
      · rw [List.mem_singleton.mp h]; exact .inr ⟨hen, hb⟩ }

theorem acceptRecord_undisturbed (r : Record) (q : SeqState) (hen : (s.stream r.stream).enabled = true) :
    Undisturbed still s (acceptRecord r q s) := by
  have h := modStream_traffic (s := s) hb (n := r.stream) (f := fun x =>
    { x with
      seq := q, lastAccepted := r.commitTime, silent := false
      counters := { x.counters with accepted := x.counters.accepted + 1 } }) rfl rfl rfl
  exact (offerRecord_undisturbed hb r ((h.stream _).enabled.trans hen)).comp h

theorem commitRecord_undisturbed (n : StreamIx) (a : Assembly) (h : Header) (hen : (s.stream n).enabled = true) :
    Undisturbed still s (commitRecord n a h s) := by
  have hdrop (c : Cause) := dropRecord_undisturbed (s := s) hb n c
  unfold commitRecord; dsimp only
  refine .ite (hdrop _) ?_
  split
  · exact hdrop _
  refine .ite (hdrop _) (.ite (hdrop _) (.ite (hdrop _) ?_))
  split
  · exact hdrop _
  · exact acceptRecord_undisturbed hb (recordOf n s.clock a h _) _ hen
  · next q g _ =>
    have hgap := countGap_undisturbed (s := s) hb n g
    exact (acceptRecord_undisturbed hb { recordOf n s.clock a h _ with gap := some g } q
      ((hgap.stream n).enabled.trans hen)).comp hgap

theorem asmWrite_undisturbed (n : StreamIx) (slot : Nat) (i : Fin 8) (d : LineData) (m : ByteMask) :
    Undisturbed still s (asmWrite n slot i d m s) := by
  unfold asmWrite; dsimp only; split
  · next hen =>
    have h := modStream_traffic (s := s) hb (n := n) (f := fun x =>
      { x with assemblies := (writeAssemblies (s.stream n).desc s.clock slot i d m (s.stream n).assemblies).1 }) rfl rfl rfl
    have hcount (f : Stream → StreamCounters) (c : Cause) := (Undisturbed.post (streamSource n) c _).comp
      ((modStream_traffic hb (n := n) (f := fun x => { x with counters := f x }) rfl rfl rfl).comp h)
    split
    · exact h
    · exact hcount _ _
    · exact hcount _ _
    · exact (commitRecord_undisturbed hb n _ _ ((h.stream n).enabled.trans hen)).comp h
  · exact .refl s

end

/-! ### The Correlator (section 4) -/

section
variable {still : Prop} (p : PairIx) (r : Record) (s : State)

theorem addUntracked_undisturbed (k : BitVec 32) : Undisturbed still s (addUntracked p k s) := .modLists rfl rfl rfl fun _ => id

theorem countUnseen_undisturbed : Undisturbed still s (countUnseen p r s) := by
  have h : Undisturbed still s (if r.overrun then addUntracked p 1 s else s) :=
    .ite (addUntracked_undisturbed p s 1) (.refl s)
  unfold countUnseen; dsimp only; split
  · exact h
  · exact (addUntracked_undisturbed p _ _).comp h

theorem retryRequest_undisturbed : Undisturbed still s (retryRequest p r s) :=
  .modLists rfl rfl rfl fun _ ⟨ho, hl⟩ => by simp [Pair.Bare, ho, hl]

/-- An event that frees an entry, counts a paired event and hands a sample to the EST (R54, R56, R83). -/
theorem completed_undisturbed (l : Nat) {c : Bool} {t : State} {f : State → State} (hf : ∀ u, Undisturbed still u (f u))
    (h : Undisturbed still s t) : Undisturbed still s (takeSample p l (if c then f t else t)) :=
  (takeSample_undisturbed p _ l).comp (.ite ((hf t).comp h) h)

theorem completeOpen_undisturbed (e : Entry) : Undisturbed still s (completeOpen p r e s) :=
  completed_undisturbed p s _ (examineOpen_undisturbed p) ((settleDraining_undisturbed p _).comp
    ((pairedEvent_undisturbed p _).comp
      (.modLists rfl rfl rfl fun _ ⟨ho, hl⟩ => ⟨by rw [ho]; rfl, hl⟩)))

theorem completeLate_undisturbed (e : LateEntry) : Undisturbed still s (completeLate p r e s) :=
  completed_undisturbed p s _ (examineLate_undisturbed p) ((settleDraining_undisturbed p _).comp
    ((pairedEvent_undisturbed p _).comp (.comp (.post _ _ _)
      (.modLists rfl rfl rfl fun _ ⟨ho, hl⟩ => ⟨ho, by rw [hl]; rfl⟩))))

theorem orphan_undisturbed : Undisturbed still s (orphan p s) :=
  (adverseEvent_windowOnly _ p).finding.undisturbed.comp (.comp (.post _ _ _) (.modLists rfl rfl rfl fun _ => id))

theorem taintWindow_undisturbed : Undisturbed still s (taintWindow p r s) :=
  .ite (windowOnly_modPair s p tainted_kept).finding.undisturbed (.refl s)

theorem pickup_undisturbed (n : StreamIx) (slot : Nat) : Undisturbed still s (pickup n slot s) := by
  unfold pickup; split
  · exact .refl s
  · exact .ite (.modLists rfl rfl rfl fun _ ⟨ho, hl⟩ => ⟨by rw [ho]; rfl, hl⟩) (.refl s)

end

/-! Requests and the entries that HOLD re-arms bring in traffic. -/

section
variable {still : Prop} (p : PairIx) (r : Record) {s : State} (hb : ¬ still)
include hb

theorem modLists_traffic {f : Pair → Pair} (hdesc : (f (s.pair p)).desc = (s.pair p).desc)
    (hhealth : (f (s.pair p)).health = (s.pair p).health) (hhev : (f (s.pair p)).hev = (s.pair p).hev) :
    Undisturbed still s (s.modPair p f) := .modLists hdesc hhealth hhev fun k => absurd k hb

theorem insertRequest_undisturbed : Undisturbed still s (insertRequest p r s) := by
  have hstopped (c : Cause) := (addUntracked_undisturbed (still := still) p _ 1).comp (.post (pairSource p) c s)
  have hjoined := Undisturbed.comp (.modLists (p := p)
      (f := fun q => { q with counters := { q.counters with tracked := q.counters.tracked + 1 } }) rfl rfl rfl fun _ => id)
    (modLists_traffic (s := s) p hb (f := fun q => { q with openList := q.openList ++ [newEntry r] }) rfl rfl rfl)
  exact .ite (hstopped _) (.ite (hstopped _) (.ite ((examineOpen_undisturbed p _).comp hjoined) hjoined))

theorem handleRequest_undisturbed : Undisturbed still s (handleRequest p r s) := by
  have hunseen := countUnseen_undisturbed (still := still) p r s
  exact .ite ((retryRequest_undisturbed p r _).comp hunseen) (.ite ((addUntracked_undisturbed p _ 1).comp hunseen)
    ((insertRequest_undisturbed p r hb).comp hunseen))

theorem holdOpen_undisturbed (e : Entry) : Undisturbed still s (holdOpen p r e s) := by
  have hmoved := (pairedEvent_undisturbed p _).comp (modLists_traffic (s := s) p hb
    (f := fun q => { q with openList := removeOpen r.tag q.openList ++ [e.rearmed r.commitTime] }) rfl rfl rfl)
  exact .ite (.ite ((examineOpen_undisturbed p _).comp hmoved) hmoved) (.post _ _ s)

theorem holdLate_undisturbed (e : LateEntry) : Undisturbed still s (holdLate p r e s) := by
  have hmoved := (pairedEvent_undisturbed p _).comp (modLists_traffic (s := s) p hb (f := fun q =>
    { q with
      lateList := removeLate r.tag q.lateList
      openList := q.openList ++ [e.entry.rearmed r.commitTime] }) rfl rfl rfl)
  have hopen := Undisturbed.ite (c := (s.pair p).openList = []) ((examineOpen_undisturbed p _).comp hmoved) hmoved
  exact .ite (.ite ((examineLate_undisturbed p _).comp hopen) hopen) (.post _ _ s)

theorem matchCompletion_undisturbed : Undisturbed still s (matchCompletion p r s) := by
  unfold matchCompletion; split
  · exact .ite (holdOpen_undisturbed p r hb _) (completeOpen_undisturbed p r s _)
  · split
    · exact .ite (holdLate_undisturbed p r hb _) (completeLate_undisturbed p r s _)
    · exact orphan_undisturbed p s

end

/-! ### Bursts presented (R4, R5) -/

section
variable {still : Prop} {s : State}

theorem presentWrite_undisturbed (hb : ¬ still) (a : LineAddr) (data : LineData) (mask : ByteMask) :
    Undisturbed still s (presentWrite a data mask s) := by
  have hcount : Undisturbed still s (s.modTap fun t => { t with writeCount := t.writeCount + 1 }) := .same
  unfold presentWrite; dsimp only; split
  · exact .comp .same hcount
  · next x _ =>
    have hecho := Undisturbed.ite (c := (s.stream x.stream).desc.role = .completion)
      ((overtake_undisturbed _ { stream := x.stream, slot := x.slot }).comp hcount) hcount
    exact (asmWrite_undisturbed hb _ _ _ _ _).comp hecho

theorem presentRead_undisturbed (a : LineAddr) (data : LineData) : Undisturbed still s (presentRead a data s) := by
  have hcount : Undisturbed still s (s.modTap fun t => { t with readCount := t.readCount + 1 }) := .same
  unfold presentRead; dsimp only; split
  · exact .comp .same hcount
  · split
    · exact .ite ((pickup_undisturbed _ _ _).comp hcount) hcount
    · exact (lineRead_undisturbed _ _ _ _).comp hcount
    · exact hcount

end

end Sys2Proof.Machine
end

/-! ## The triggers that stand, and what joins them -/
section

namespace Sys2Proof.Machine

/-! ### The standing-trigger set and what it stands for (R96, R106, R131, R132) -/

theorem bits_zero_iff {w : Nat} (b : BitVec w) : b = 0 ↔ ∀ i : Fin w, b.getLsbD i.1 = false := by
  rw [BitVec.eq_of_getLsbD_eq_iff, Fin.forall_iff]
  simp

theorem isEmpty_iff (t : TriggerSet) : t.isEmpty = true ↔ ∀ k, t.has k = false := by
  simp only [TriggerSet.isEmpty, Bool.and_eq_true, decide_eq_true_eq, Bool.not_eq_true', bits_zero_iff]
  refine ⟨fun ⟨⟨hpairs, hstreams⟩, hloss⟩ k => ?_, fun h =>
    ⟨⟨fun p => h (.pair p), fun n => h (.stream n)⟩, h .channelLoss⟩⟩
  cases k with
  | pair p => exact hpairs p
  | stream n => exact hstreams n
  | channelLoss => exact hloss

/-- What a trigger of the set stands for: a FAILED pair with fence yes (R96), a stream at its miss limit with fence yes (R106),
channel loss with fence-on-loss on (R132). -/
def standsFor (s : State) : Trigger → Bool
  | .pair p => (s.pair p).fences
  | .stream n => (s.stream n).pulseTrigger
  | .channelLoss => lossStands s && s.vrd.settings.fenceOnLoss

/-- A trigger of a pair or of channel loss. -/
def Trigger.ofBoard : Trigger → Bool
  | .stream _ => false
  | .pair _ | .channelLoss => true

theorem triggersHold_iff {s : State} : TriggersHold s
    ↔ (s.vrd.verdict ≠ .fault → ∀ k, s.vrd.triggers.has k = false)
      ∧ ∀ k, k.ofBoard = true → s.vrd.triggers.has k = standsFor s k := by
  rw [TriggersHold, isEmpty_iff]
  refine and_congr_right fun _ => ⟨fun ⟨hpair, hloss⟩ k hk => ?_, fun h => ⟨fun p => h (.pair p) rfl, h .channelLoss rfl⟩⟩
  cases k with
  | pair p => exact hpair p
  | stream n => cases hk
  | channelLoss => exact hloss

/-- The pulse state and the miss limit of a stream are in their ranges, and a disabled stream has no miss and no timer (R104). -/
def Stream.PulseSound (x : Stream) : Prop :=
  1 ≤ x.desc.missLimit ∧ x.pulse.missCount ≤ 15 ∧ (x.enabled = false → x.pulse.missCount = 0 ∧ x.pulse.timer = .stopped)

theorem pulseTriggersHold_iff {s : State} : PulseTriggersHold s
    ↔ (∀ r ∈ s.commitQueue, (s.stream r.stream).enabled = true)
      ∧ ∀ n, s.vrd.triggers.has (.stream n) = standsFor s (.stream n) ∧ (s.stream n).PulseSound := Iff.rfl

/-! ### The join of a trigger (R131, R133) -/

section
variable (m : Trigger) (s : State)

/-- From HOLDOFF a pair's trigger stands that stood, or that its promotion makes stand (R95, R96). -/
theorem faultReached_fences (p : PairIx) : ((faultReached m s).pair p).fences
    = ((s.pair p).fences || ((s.pair p).hev.promotionPending && (s.pair p).desc.fence)) := by
  have hset : (s.pair p).Undisturbed False ((setFactor 1 (faultEntered m s)).pair p) :=
    (setFactor_undisturbed (faultEntered m s) 1).pair p
  have hpromoted : PendingFailed (setFactor 1 (faultEntered m s)) (faultReached m s) := promoteInFault_pendingFailed _
  generalize setFactor 1 (faultEntered m s) = u at *
  generalize faultReached m s = t at *
  have h := hpromoted p
  rw [hset.pending] at h
  split at h
  · next hp => rw [h.1, hp, Pair.fences, failedPair, hset.desc, Pair.fences]; simp
  · next hp => rw [h.1, hset.fences, Bool.eq_false_iff.mpr hp]; simp

theorem faultReached_hasBool (k : Trigger) : (faultReached m s).vrd.triggers.has k
    = (s.vrd.triggers.has k || decide (k = m)
        || decide (∃ p : PairIx, k = .pair p ∧ promotesTrigger s p = true)) := by
  rw [Bool.eq_iff_iff, faultReached_has]
  simp only [Bool.or_eq_true, decide_eq_true_eq, or_assoc]

variable {m s}

theorem joinTrigger_known (hm : s.vrd.triggers.has m = true) : joinTrigger m s = s := if_pos hm

theorem joinTrigger_fault (hm : s.vrd.triggers.has m = false) (hv : s.vrd.verdict = .fault) : joinTrigger m s
    = s.modVrd fun v =>
      { v with triggers := v.triggers.insert m, counters := { v.counters with triggers := satInc v.counters.triggers } } := by
  rw [joinTrigger, if_neg (by simp [hm]), if_pos hv, joinInFault_new hm]

theorem joinTrigger_normal (hm : s.vrd.triggers.has m = false) (hv : s.vrd.verdict = .normal) :
    joinTrigger m s = faultEntered m s := by
  rw [joinTrigger, if_neg (by simp [hm]), if_neg (by simp [hv]), enterFault_normal hv]

theorem joinTrigger_holdoff {h : HoldOff} (hm : s.vrd.triggers.has m = false) (hv : s.vrd.verdict = .holdoff h) :
    joinTrigger m s = faultReached m s := by
  rw [joinTrigger, if_neg (by simp [hm]), if_neg (by simp [hv]), enterFault_holdoff hv]
  rfl

variable (m s)

/-- Which triggers are in the set after a trigger joined, and which stand: beside that trigger, those that the promotions at
the end of a hold-off bring about. -/
theorem joinTrigger_stands {k : Trigger} (hk : k.ofBoard = true) : ∃ b : Bool,
    (joinTrigger m s).vrd.triggers.has k = (s.vrd.triggers.has k || decide (k = m) || (b && !s.vrd.triggers.has k))
      ∧ standsFor (joinTrigger m s) k = (standsFor s k || b) := by
  have hloss : standsFor (joinTrigger m s) .channelLoss = standsFor s .channelLoss := by
    obtain ⟨-, -, hsettings, -⟩ := joinTrigger_steady m s
    have htap : (joinTrigger m s).tap = s.tap := by rw [joinTrigger_only]
    rw [standsFor, standsFor, hsettings, lossStands, htap, lossStands]
  have hinsert (k : Trigger) : (s.vrd.triggers.insert m).has k
      = (s.vrd.triggers.has k || decide (k = m) || (false && !s.vrd.triggers.has k)) := by
    rw [TriggerSet.has_insert]; simp
  by_cases hm : s.vrd.triggers.has m = true
  · refine ⟨false, ?_⟩
    rw [joinTrigger_known hm]
    by_cases e : k = m
    · subst e; simp [hm]
    · simp [e]
  have hnew : s.vrd.triggers.has m = false := Bool.eq_false_iff.mpr hm
  cases hv : s.vrd.verdict with
  | fault =>
    refine ⟨false, ?_⟩
    rw [joinTrigger_fault hnew hv, Bool.or_false]
    exact ⟨hinsert k, by cases k <;> rfl⟩
  | normal =>
    refine ⟨false, ?_⟩
    rw [joinTrigger_normal hnew hv, Bool.or_false]
    exact ⟨hinsert k, by cases k <;> rfl⟩
  | holdoff h =>
    rw [joinTrigger_holdoff hnew hv] at hloss ⊢
    rw [faultReached_hasBool]
    cases k with
    | pair p =>
      refine ⟨(s.pair p).hev.promotionPending && (s.pair p).desc.fence, ?_, faultReached_fences m s p⟩
      simp [promotesTrigger]
    | channelLoss => exact ⟨false, by simp, by rw [hloss, Bool.or_false]⟩
    | stream n => cases hk

/-- The streams' triggers in the set after a trigger joined. -/
theorem joinTrigger_streams (n : StreamIx) : (joinTrigger m s).vrd.triggers.has (.stream n)
    = (s.vrd.triggers.has (.stream n) || decide (.stream n = m)) := by
  by_cases hm : s.vrd.triggers.has m = true
  · rw [joinTrigger_known hm]
    by_cases e : .stream n = m
    · rw [e, hm]; simp
    · simp [e]
  have hnew : s.vrd.triggers.has m = false := Bool.eq_false_iff.mpr hm
  cases hv : s.vrd.verdict with
  | fault => rw [joinTrigger_fault hnew hv]; exact TriggerSet.has_insert ..
  | normal => rw [joinTrigger_normal hnew hv]; exact TriggerSet.has_insert ..
  | holdoff h => rw [joinTrigger_holdoff hnew hv, faultReached_hasBool]; simp

variable {m s}

/-- A trigger that stands and joins leaves the set in agreement with what it stands for, if that alone was amiss. -/
theorem joinTrigger_triggersHold (hempty : s.vrd.verdict ≠ .fault → ∀ k, s.vrd.triggers.has k = false)
    (hothers : ∀ k, k.ofBoard = true → k ≠ m → s.vrd.triggers.has k = standsFor s k)
    (hm : m.ofBoard = true → standsFor s m = true) : TriggersHold (joinTrigger m s) := by
  refine triggersHold_iff.mpr ⟨fun hv => absurd ?_ hv, fun k hk => ?_⟩
  · by_cases h : s.vrd.triggers.has m = true
    · rw [joinTrigger_known h]
      by_contra k
      exact Bool.false_ne_true ((hempty k m).symm.trans h)
    · exact joinTrigger_verdict s m (Bool.eq_false_iff.mpr h)
  · obtain ⟨b, hhas, hstands⟩ := joinTrigger_stands m s hk
    rw [hhas, hstands]
    by_cases e : k = m
    · rw [e, hm (e ▸ hk)]; simp
    · rw [hothers k hk e]
      cases standsFor s k <;> simp [e]

end

end Sys2Proof.Machine
end

/-! ## What the Verdict Unit and the Health Evaluator leave of health, triggers and pulses -/
section

namespace Sys2Proof.Machine

/-! ### The invariants of the supervision -/

/-- The invariants of health, of the triggers and of the board reset that hold in `s` hold in `t`. -/
structure Supervised (s t : State) : Prop where
  health : HealthHolds s → HealthHolds t
  triggers : TriggersHold s → TriggersHold t
  pulse : PulseTriggersHold s → PulseTriggersHold t
  quiet : BoardResetQuiet s → BoardResetQuiet t

namespace Supervised

variable {s t u : State}

theorem refl (s : State) : Supervised s s := ⟨id, id, id, id⟩

theorem trans (h : Supervised s t) (k : Supervised t u) : Supervised s u :=
  ⟨k.health ∘ h.health, k.triggers ∘ h.triggers, k.pulse ∘ h.pulse, k.quiet ∘ h.quiet⟩

/-- The operation done last first, as a meaning writes it. -/
theorem comp (k : Supervised t u) (h : Supervised s t) : Supervised s u := h.trans k

theorem ite {c : Prop} [Decidable c] (h : c → Supervised s t) (k : Supervised s u) : Supervised s (if c then t else u) := by
  split
  · next hc => exact h hc
  · exact k

end Supervised

theorem boardResetQuiet_iff {s : State} : BoardResetQuiet s ↔ (s.tap.brstAsserted = true →
    s.commitQueue = [] ∧ (∀ n, (s.stream n).assemblies = []) ∧ (∀ p, (s.pair p).Bare) ∧ s.echo.Bare) := Iff.rfl

namespace Undisturbed

variable {still : Prop} {s t : State} (h : Undisturbed still s t)
include h

theorem standsFor (k : Trigger) : Machine.standsFor t k = Machine.standsFor s k := by
  cases k with
  | pair p => exact (h.pair p).fences
  | stream n =>
    rw [Machine.standsFor, Stream.pulseTrigger, (h.stream n).desc, (h.stream n).pulse]
    rfl
  | channelLoss => rw [Machine.standsFor, h.loss, h.fenceOnLoss]; rfl

theorem healthHolds (hs : HealthHolds s) : HealthHolds t := healthHolds_iff.mpr fun p => by
  rw [h.brst]
  exact (h.pair p).sound (hs p)

theorem triggersHold (hs : TriggersHold s) : TriggersHold t := by
  rw [triggersHold_iff, h.triggers] at *
  simp only [h.standsFor, ne_eq, h.fault]
  exact hs

theorem pulseTriggersHold (hs : PulseTriggersHold s) : PulseTriggersHold t := by
  obtain ⟨hqueue, hstream⟩ := hs
  refine ⟨fun r hr => ?_, fun n => ?_⟩
  · rw [(h.stream _).enabled]
    exact (h.queue r hr).elim (hqueue r) And.left
  · dsimp only
    rw [h.triggers, (h.stream n).desc, (h.stream n).enabled, (h.stream n).pulse]
    exact hstream n

theorem boardResetQuiet (hb : s.tap.brstAsserted = true → still) (hs : BoardResetQuiet s) : BoardResetQuiet t := fun k => by
  rw [h.brst] at k
  have hb := hb k
  obtain ⟨hqueue, hasm, hpairs, hecho⟩ := boardResetQuiet_iff.mp hs k
  refine ⟨List.eq_nil_iff_forall_not_mem.mpr fun r hr => ?_, fun n => (h.stream n).bare hb (hasm n),
    fun p => (h.pair p).bare hb (hpairs p), h.echo hb hecho⟩
  rcases h.queue r hr with k | ⟨-, k⟩
  · rw [hqueue] at k; cases k
  · exact k hb

end Undisturbed

/-- What moves no health, no trigger and no pulse state, and brings in nothing while BRST_N is asserted, keeps the invariants of the
supervision. -/
theorem Undisturbed.supervised {s t : State} (h : Undisturbed (s.tap.brstAsserted = true) s t) : Supervised s t :=
  ⟨h.healthHolds, h.triggersHold, h.pulseTriggersHold, h.boardResetQuiet id⟩

/-- The same of an event of the traffic, which does not come while BRST_N is asserted. -/
theorem Undisturbed.supervised_traffic {s t : State} (h : Undisturbed False s t)
    (hb : BoardResetQuiet s → s.tap.brstAsserted = false) : Supervised s t :=
  ⟨h.healthHolds, h.triggersHold, h.pulseTriggersHold, fun hs k => by rw [h.brst, hb hs] at k; cases k⟩

/-! ### Health moves: one pair -/

/-- A change of one pair that keeps its health record sound, its trigger as it was, and brings it no entry. -/
structure Pair.Supervised (brst : Bool) (q r : Pair) : Prop where
  sound : q.Sound brst → r.Sound brst
  fences : r.fences = q.fences
  bare : q.Bare → r.Bare

theorem Supervised.modPair {s : State} {p : PairIx} {f : Pair → Pair}
    (h : (s.pair p).Supervised s.tap.brstAsserted (f (s.pair p))) : Supervised s (s.modPair p f) where
  health hs := fun r => by
    rw [modPair_place]
    split
    · next e => subst e; exact h.sound (hs r)
    · exact hs r
  triggers hs := by
    obtain ⟨hempty, hstands⟩ := triggersHold_iff.mp hs
    refine triggersHold_iff.mpr ⟨hempty, fun k hk => (hstands k hk).trans ?_⟩
    cases k with
    | pair r =>
      rw [standsFor, standsFor, modPair_place]
      split
      · next e => subst e; exact h.fences.symm
      · rfl
    | stream n => rfl
    | channelLoss => rfl
  pulse := id
  quiet hs hb := by
    obtain ⟨hqueue, hasm, hpairs, hecho⟩ := boardResetQuiet_iff.mp hs hb
    refine ⟨hqueue, hasm, fun r => ?_, hecho⟩
    rw [modPair_place]
    split
    · next e => subst e; exact h.bare (hpairs r)
    · exact hpairs r

/-- A pair that is neither FAILED before nor after, its lists as they were. -/
theorem Pair.Supervised.moved {brst : Bool} {q r : Pair} (hq : q.health ≠ .failed) (hr : r.health ≠ .failed)
    (hopen : r.openList = q.openList) (hlate : r.lateList = q.lateList) (h : q.Sound brst → r.Sound brst) :
    q.Supervised brst r :=
  ⟨h, by simp [Pair.fences, hq, hr], fun ⟨ho, hl⟩ => ⟨hopen.trans ho, hlate.trans hl⟩⟩

/-- A pair whose health stays, with what the HEV keeps of it changed. -/
theorem Pair.Supervised.kept {brst : Bool} {q r : Pair} (hr : r = { q with hev := r.hev })
    (h : q.Sound brst → r.Sound brst) : q.Supervised brst r := by
  refine ⟨h, ?_, ?_⟩
  · rw [hr]; rfl
  · rw [hr]; exact id

/-! ### What the operations leave of the pairs -/

/-- What an operation of the Verdict Unit or the HEV leaves, the triggers aside. -/
structure PairsJudged (s t : State) : Prop where
  only : VerdictOnly s t
  health : HealthHolds s → HealthHolds t
  bare : ∀ p, (s.pair p).Bare → (t.pair p).Bare

namespace PairsJudged

variable {s t u : State}

theorem refl (s : State) : PairsJudged s s := ⟨.refl s, id, fun _ => id⟩

theorem brst (h : PairsJudged s t) : t.tap.brstAsserted = s.tap.brstAsserted := by rw [h.only]

theorem trans (h : PairsJudged s t) (k : PairsJudged t u) : PairsJudged s u :=
  ⟨h.only.trans k.only, k.health ∘ h.health, fun p => k.bare p ∘ h.bare p⟩

/-- The operation done last first, as a meaning writes it. -/
theorem comp (k : PairsJudged t u) (h : PairsJudged s t) : PairsJudged s u := h.trans k

theorem ite {c : Prop} [Decidable c] (h : PairsJudged s t) (k : PairsJudged s u) : PairsJudged s (if c then t else u) := by
  split
  · exact h
  · exact k

theorem stream (h : PairsJudged s t) (n : StreamIx) : t.stream n = s.stream n := by
  have hstreams : t.streams = s.streams := by rw [h.only]
  rw [State.stream, State.stream, hstreams]

theorem queue (h : PairsJudged s t) : t.commitQueue = s.commitQueue := by rw [h.only]

theorem pulseTriggersHold (h : PairsJudged s t)
    (hstreams : ∀ n, t.vrd.triggers.has (.stream n) = s.vrd.triggers.has (.stream n)) (hs : PulseTriggersHold s) :
    PulseTriggersHold t := by
  obtain ⟨hqueue, hstream⟩ := pulseTriggersHold_iff.mp hs
  refine pulseTriggersHold_iff.mpr ⟨fun r hr => ?_, fun n => ?_⟩
  · rw [h.stream]; exact hqueue r (h.queue ▸ hr)
  · rw [hstreams, standsFor, h.stream]; exact hstream n

theorem boardResetQuiet (h : PairsJudged s t) (hs : BoardResetQuiet s) : BoardResetQuiet t := fun hb => by
  rw [h.brst] at hb
  obtain ⟨hqueue, hasm, hpairs, hecho⟩ := boardResetQuiet_iff.mp hs hb
  have hkept : t.echo = s.echo := by rw [h.only]
  exact ⟨h.queue.trans hqueue, fun n => by rw [h.stream]; exact hasm n, fun p => h.bare p (hpairs p),
    by rw [hkept]; exact hecho⟩

theorem modVrd (f : Vrd → Vrd) (s : State) : PairsJudged s (s.modVrd f) := ⟨.modVrd s f, id, fun _ => id⟩

theorem post (i : SourceIx) (c : Cause) (s : State) : PairsJudged s (post i c s) :=
  ⟨(PairsAndSources.post s i c).verdictOnly, id, fun _ => id⟩

theorem modPair {p : PairIx} {f : Pair → Pair}
    (hsound : HealthHolds s → (f (s.pair p)).Sound s.tap.brstAsserted)
    (hbare : (s.pair p).Bare → (f (s.pair p)).Bare) : PairsJudged s (s.modPair p f) where
  only := (PairsAndSources.modPair s p f).verdictOnly
  health hs := fun r => by
    rw [modPair_place]
    split
    · next e => subst e; exact hsound hs
    · exact hs r
  bare r := by
    rw [modPair_place]
    split
    · next e => subst e; exact hbare
    · exact id

end PairsJudged

theorem Undisturbed.pairsJudged {s t : State} (h : Undisturbed True s t) (ho : VerdictOnly s t) : PairsJudged s t :=
  ⟨ho, h.healthHolds, fun p => (h.pair p).bare trivial⟩

/-- A pair of which a promotion is pending is SUSPECT (section 6.3). -/
theorem pending_suspect {s : State} {p : PairIx} (hs : HealthHolds s) (h : (s.pair p).hev.promotionPending = true) :
    (s.pair p).health = .suspect := by
  obtain ⟨-, -, -, hrest, -⟩ := hs p
  by_contra hne
  obtain ⟨-, hnone⟩ := hrest hne
  rw [h] at hnone; cases hnone

/-- A SUSPECT pair that has become FAILED (R94). -/
theorem failed_sound {brst : Bool} {q : Pair} (h : q.Sound brst) (hq : q.health = .suspect) : (failedPair q).Sound brst := by
  obtain ⟨hwindow, hheld, hquiesce, -, hhistory⟩ := h
  rw [hq] at hwindow hquiesce
  exact ⟨hwindow, hheld, hquiesce, fun _ => ⟨rfl, rfl⟩, hhistory⟩

section
variable (m : Trigger) {s : State} {p : PairIx}

theorem joinInFault_pairsJudged (s : State) : PairsJudged s (joinInFault m s) := .ite (.refl s) (.modVrd _ s)

theorem markFailed_pairsJudged (h : HealthHolds s → (s.pair p).health = .suspect) : PairsJudged s (markFailed p s) :=
  .comp (.post _ _ _) (.modPair (f := failedPair) (fun hs => failed_sound (hs p) (h hs)) id)

theorem promoteStep_pairsJudged (s : State) (p : PairIx) : PairsJudged s (promoteStep s p) := by
  unfold promoteStep; split
  · next hp =>
    have hmark := markFailed_pairsJudged (s := s) fun hs => pending_suspect hs hp
    exact .ite ((joinInFault_pairsJudged _ _).comp hmark) hmark
  · exact .refl s

theorem promoteInFault_pairsJudged (s : State) : PairsJudged s (promoteInFault s) :=
  foldl_keeps (P := PairsJudged s) (fun t r h => h.trans (promoteStep_pairsJudged t r)) allPairs (.refl s)

theorem setFactor_pairsJudged (f : Nat) (s : State) : PairsJudged s (setFactor f s) :=
  (setFactor_undisturbed s f).pairsJudged (setFactor_only s f)

theorem faultEntered_pairsJudged (s : State) : PairsJudged s (faultEntered m s) := .comp (.post _ _ _) (.modVrd _ s)

theorem joinTrigger_pairsJudged (s : State) : PairsJudged s (joinTrigger m s) := by
  refine .ite (.refl s) ?_
  cases hv : s.vrd.verdict with
  | fault => exact joinInFault_pairsJudged m s
  | normal => rw [if_neg (by simp), enterFault_normal hv]; exact faultEntered_pairsJudged m s
  | holdoff h =>
    rw [if_neg (by simp), enterFault_holdoff hv]
    exact (promoteInFault_pairsJudged _).comp ((setFactor_pairsJudged 1 _).comp (faultEntered_pairsJudged m s))

end

/-! ### What the operations leave of the triggers -/

/-- What an operation of the Verdict Unit or the HEV leaves that joins a trigger when it makes one stand. -/
structure TriggersJudged (s t : State) : Prop extends PairsJudged s t where
  triggers : TriggersHold s → TriggersHold t
  streams : ∀ n, t.vrd.triggers.has (.stream n) = s.vrd.triggers.has (.stream n)

namespace TriggersJudged

variable {s t u : State}

theorem refl (s : State) : TriggersJudged s s := ⟨.refl s, id, fun _ => rfl⟩

theorem trans (h : TriggersJudged s t) (k : TriggersJudged t u) : TriggersJudged s u :=
  ⟨h.toPairsJudged.trans k.toPairsJudged, k.triggers ∘ h.triggers, fun n => (k.streams n).trans (h.streams n)⟩

/-- The operation done last first, as a meaning writes it. -/
theorem comp (k : TriggersJudged t u) (h : TriggersJudged s t) : TriggersJudged s u := h.trans k

theorem ite {c : Prop} [Decidable c] (h : TriggersJudged s t) (k : TriggersJudged s u) : TriggersJudged s (if c then t else u) := by
  split
  · exact h
  · exact k

theorem post (i : SourceIx) (c : Cause) (s : State) : TriggersJudged s (post i c s) := ⟨.post i c s, id, fun _ => rfl⟩

theorem modPair {p : PairIx} {f : Pair → Pair} (h : (s.pair p).Supervised s.tap.brstAsserted (f (s.pair p))) :
    TriggersJudged s (s.modPair p f) :=
  ⟨.modPair (fun hs => h.sound (hs p)) h.bare, (Supervised.modPair h).triggers, fun _ => rfl⟩

/-- The Verdict Unit and the HEV write neither streams nor the Commit Queue nor the echo part. -/
theorem supervised (h : TriggersJudged s t) : Supervised s t where
  health := h.health
  triggers := h.triggers
  pulse := h.pulseTriggersHold h.streams
  quiet := h.boardResetQuiet

end TriggersJudged

theorem Undisturbed.triggersJudged {s t : State} (h : Undisturbed True s t) (ho : VerdictOnly s t) : TriggersJudged s t :=
  ⟨h.pairsJudged ho, h.triggersHold, fun n => by rw [h.triggers]⟩

section
variable {s : State} {p : PairIx}

/-- A SUSPECT pair becomes FAILED, and its trigger joins if it has fence yes (R94, R96). -/
theorem failPair_triggersJudged (h : HealthHolds s → (s.pair p).health = .suspect) : TriggersJudged s (failPair p s) := by
  have hmark := markFailed_pairsJudged (p := p) h
  unfold failPair; split
  · next hf =>
    refine ⟨(joinTrigger_pairsJudged _ _).comp hmark, fun hs => ?_, fun n => ?_⟩
    · obtain ⟨hempty, hstands⟩ := triggersHold_iff.mp hs
      refine joinTrigger_triggersHold hempty (fun k hk hne => (hstands k hk).trans ?_) fun _ => ?_
      · cases k with
        | pair r => rw [standsFor, standsFor, markFailed_other s p fun e => hne (congrArg _ e)]
        | stream n => rfl
        | channelLoss => rfl
      · rw [standsFor, markFailed_pair, Pair.fences, failedPair, hf]; rfl
    · rw [joinTrigger_streams, markFailed_vrd]; simp
  · next hf =>
    refine ⟨hmark, fun hs => ?_, fun _ => rfl⟩
    obtain ⟨hempty, hstands⟩ := triggersHold_iff.mp hs
    refine triggersHold_iff.mpr ⟨hempty, fun k hk => (hstands k hk).trans ?_⟩
    cases k with
    | pair r =>
      rw [standsFor, standsFor]
      by_cases e : r = p
      · rw [e, markFailed_pair, Pair.fences, Pair.fences, failedPair]; simp [hf]
      · rw [markFailed_other s p e]
    | stream n => rfl
    | channelLoss => rfl

theorem promotePending_triggersJudged (s : State) : TriggersJudged s (promotePending s) :=
  foldl_keeps (P := TriggersJudged s) (fun t r h => by
    split
    · next hp => exact h.trans (failPair_triggersJudged fun hs => pending_suspect hs hp)
    · exact h) (promotionOrder s) (.refl s)

theorem passLimit_triggersJudged {h : HoldOff} (hv : s.vrd.verdict = .holdoff h) : TriggersJudged s (passLimit h s) := by
  have hpassed : Undisturbed True s (s.modVrd fun v =>
      { v with
        verdict := .holdoff { h with limitPassed := true }
        counters := { v.counters with limitPasses := satInc v.counters.limitPasses } }) :=
    { Undisturbed.refl s with fault := by rw [hv]; exact ⟨nofun, nofun⟩ }
  exact (promotePending_triggersJudged _).comp (.comp (.post _ _ _) (hpassed.triggersJudged (.modVrd s _)))

/-- The hold-off ends in NORMAL: no pair, no trigger moves (R136). -/
theorem releaseHoldoff_undisturbed {still : Prop} {h : HoldOff} (hv : s.vrd.verdict = .holdoff h) :
    Undisturbed still s (releaseHoldoff s) :=
  (setFactor_undisturbed _ 1).comp { Undisturbed.refl s with fault := by rw [hv]; exact ⟨nofun, nofun⟩ }

theorem enterHoldoff_undisturbed {still : Prop} (hv : s.vrd.verdict = .normal) : Undisturbed still s (enterHoldoff s) :=
  (setFactor_undisturbed _ _).comp (.comp (.post _ _ _)
    { Undisturbed.refl s with fault := by rw [hv]; exact ⟨nofun, nofun⟩ })

/-! ### The end of a window (R88 to R95) -/

/-- The confirm counter and the pending mark of a SUSPECT pair are its own to move. -/
theorem suspect_supervised {brst : Bool} {q r : Pair} (hq : q.health = .suspect)
    (hr : r = { q with hev := { q.hev with confirm := r.hev.confirm, promotionPending := r.hev.promotionPending } }) :
    q.Supervised brst r := by
  refine .kept (by rw [hr]) fun ⟨hwindow, hheld, hquiesce, _, hhistory⟩ => ?_
  rw [hr]
  exact ⟨hwindow, hheld, hquiesce, fun k => absurd hq k, hhistory⟩

theorem suspectSample_triggersJudged (h : (s.pair p).health = .suspect) : TriggersJudged s (suspectSample p s) := by
  have hconfirm : TriggersJudged s (s.modPair p fun q => { q with hev := { q.hev with confirm := q.hev.confirm + 1 } }) :=
    .modPair (suspect_supervised h rfl)
  have hstays : ((s.modPair p fun q => { q with hev := { q.hev with confirm := q.hev.confirm + 1 } }).pair p).health
      = .suspect := by rw [modPair_same]; exact h
  exact .ite (.ite (.refl s) (failPair_triggersJudged fun _ => h)) (.ite (.ite
    (.comp (.post _ _ _) (.comp (.modPair (suspect_supervised hstays rfl)) hconfirm))
    ((failPair_triggersJudged fun _ => hstays).comp hconfirm)) hconfirm)

/-- The health states whose history takes samples (R92). -/
def Health.sampled (h : Health) : Prop := h = .healthy ∨ h = .watch ∨ h = .suspect

theorem Health.sampled.enabled {h : Health} (k : h.sampled) : h.enabled = true := by
  rcases k with k | k | k <;> rw [k] <;> rfl

theorem Health.sampled.not_failed {h : Health} (k : h.sampled) : h ≠ .failed := by
  rcases k with k | k | k <;> rw [k] <;> decide

theorem Health.sampled.not_quiesced {h : Health} (k : h.sampled) : h ≠ .quiesced := by
  rcases k with k | k | k <;> rw [k] <;> decide

/-- A sample may take a pair to HEALTHY, WATCH or SUSPECT, its confirm counter and pending mark cleared (R93). -/
theorem sampled_supervised {brst : Bool} {q r : Pair} (hq : q.health.sampled) (hr : r.health.sampled)
    (hopen : r.openList = q.openList) (hlate : r.lateList = q.lateList)
    (hhev : r.hev = { q.hev with confirm := 0, promotionPending := false, counters := r.hev.counters }) :
    q.Supervised brst r := by
  refine .moved hq.not_failed hr.not_failed hopen hlate fun ⟨hwindow, hheld, hquiesce, _, hhistory⟩ => ?_
  rw [Pair.Sound, hhev]
  refine ⟨hwindow.trans (by rw [hq.enabled, hr.enabled]), hheld, hquiesce.trans ?_, fun _ => ⟨rfl, rfl⟩, hhistory⟩
  rw [decide_eq_false hq.not_quiesced, decide_eq_false hr.not_quiesced]

theorem judgeHealth_triggersJudged (h : (s.pair p).health.sampled) : TriggersJudged s (judgeHealth p s) := by
  unfold judgeHealth; dsimp only; split
  · exact .modPair (sampled_supervised h (.inl rfl) rfl rfl rfl)
  · exact .modPair (sampled_supervised h (.inr (.inl rfl)) rfl rfl rfl)
  · split
    · next hsus => exact suspectSample_triggersJudged hsus
    · exact .comp (.post _ _ _) (.modPair (sampled_supervised h (.inr (.inr rfl)) rfl rfl rfl))

theorem pushHistory_length (h : List Bool) (bad : Bool) : (pushHistory h bad).length ≤ 3 := by
  simp only [pushHistory, List.length_drop]
  omega

theorem judgeWindow_triggersJudged (c : WindowClass) : TriggersJudged s (judgeWindow p c s) := by
  unfold judgeWindow; split
  · next h =>
    refine (judgeHealth_triggersJudged ?_).comp (.modPair (.kept rfl fun ⟨hwindow, hheld, hquiesce, hsuspect, _⟩ =>
      ⟨hwindow, hheld, hquiesce, hsuspect, pushHistory_length _ _⟩))
    rw [modPair_same]
    exact h.2
  · exact .refl s

/-- Where a pair has a window, a fresh one takes its place (R88, R103). -/
theorem freshWindow_supervised {brst : Bool} {v : EvalWindow} (q : Pair) (hv : v.held = brst) :
    q.Supervised brst (q.modWindow fun _ => v) := by
  refine .kept rfl fun ⟨hwindow, _, hrest⟩ => ⟨(Option.isSome_map ..).trans hwindow, fun w hw => ?_, hrest⟩
  obtain ⟨-, -, rfl⟩ := Option.map_eq_some_iff.mp hw
  exact hv

theorem endWindow_triggersJudged : TriggersJudged s (endWindow p s) := by
  unfold endWindow; split
  · exact .refl s
  · next w _ =>
    have hjudged : TriggersJudged s
        (judgeWindow p (classify (s.pair p) w) (s.modPair p (Pair.recordClass (classify (s.pair p) w)))) :=
      (judgeWindow_triggersJudged _).comp (.modPair (.kept rfl id))
    exact .comp (.modPair (freshWindow_supervised _ hjudged.brst.symm)) hjudged

end

end Sys2Proof.Machine
end

/-! ## Records, missed pulses and discontinuities, and the invariants of the supervision -/
section

namespace Sys2Proof.Machine

/-! ### Quiesce and resume (R98, R99, R100) -/

section
variable {s : State} {p : PairIx}

/-- A pair that leaves QUIESCED for HEALTHY with a fresh window (R99, R100). -/
theorem resumed_supervised {brst : Bool} {q : Pair} {w : EvalWindow} (hq : q.health = .quiesced) (hw : w.held = brst)
    (c : HealthCounters) : q.Supervised brst { q.resumed w with hev := { (q.resumed w).hev with counters := c } } :=
  .moved (by rw [hq]; decide) nofun rfl rfl fun _ =>
    ⟨rfl, fun v hv => Option.some.inj hv ▸ hw, rfl, fun _ => ⟨rfl, rfl⟩, Nat.zero_le _⟩

theorem countIgnored_supervised (brst : Bool) (q : Pair) : q.Supervised brst q.countIgnored := .kept rfl id

theorem quiesceRecord_supervised (commit : Clock) : Supervised s (quiesceRecord p commit s) := by
  refine .ite (fun h => .modPair (.moved (Health.sampled.not_failed h) nofun rfl rfl ?_))
    (.modPair (countIgnored_supervised _ _))
  exact fun ⟨hwindow, hheld, _, _, hhistory⟩ =>
    ⟨hwindow.trans (Health.sampled.enabled h), hheld, rfl, fun _ => ⟨rfl, rfl⟩, hhistory⟩

theorem resumeRecord_supervised : Supervised s (resumeRecord p s) :=
  .ite (fun h => .modPair (resumed_supervised (w := freshWindow s) h rfl _)) (.modPair (countIgnored_supervised _ _))

theorem overrunQuiesce_supervised (h : quiesceDue s p = true) : Supervised s (overrunQuiesce p s) := by
  have hq : (s.pair p).health = .quiesced := by
    unfold quiesceDue at h
    split at h
    · exact of_decide_eq_true (Bool.and_eq_true_iff.mp h).1
    · cases h
  exact .comp (.modPair (resumed_supervised (w := freshWindow s) hq rfl _)) (Undisturbed.post _ _ s).supervised

end

/-! ### A trigger of a stream ends (R19, R105, R107) -/

section
variable {s t : State}

/-- The streams' triggers may leave the set without a word to the pairs and to channel loss. -/
theorem TriggersHold.streams_end (hs : TriggersHold s) (hverdict : t.vrd.verdict = s.vrd.verdict)
    (hboard : ∀ k, k.ofBoard = true → t.vrd.triggers.has k = s.vrd.triggers.has k)
    (hstreams : ∀ n, t.vrd.triggers.has (.stream n) = true → s.vrd.triggers.has (.stream n) = true)
    (hstands : ∀ k, k.ofBoard = true → standsFor t k = standsFor s k) : TriggersHold t := by
  obtain ⟨hempty, hagree⟩ := triggersHold_iff.mp hs
  refine triggersHold_iff.mpr ⟨fun hv k => ?_, fun k hk => by rw [hboard k hk, hagree k hk, hstands k hk]⟩
  have hnone := hempty (hverdict ▸ hv)
  cases k with
  | pair p => exact (hboard _ rfl).trans (hnone _)
  | channelLoss => exact (hboard _ rfl).trans (hnone _)
  | stream n =>
    refine Bool.eq_false_iff.mpr fun k => ?_
    have := hstreams n k
    rw [hnone] at this; cases this

theorem TriggersHold.leave_stream (hs : TriggersHold s) (n : StreamIx) (hverdict : t.vrd.verdict = s.vrd.verdict)
    (hset : t.vrd.triggers = s.vrd.triggers.remove (.stream n))
    (hstands : ∀ k, k.ofBoard = true → standsFor t k = standsFor s k) : TriggersHold t := by
  refine hs.streams_end hverdict (fun k hk => ?_) (fun m hm => ?_) hstands
  · rw [hset, TriggerSet.has_remove]
    rw [decide_eq_false (by rintro rfl; cases hk)]
    simp
  · rw [hset, TriggerSet.has_remove] at hm
    exact (Bool.and_eq_true_iff.mp hm).1

/-- A stream without a miss has no trigger (R106). -/
theorem pulseTrigger_of_no_miss {x : Stream} (hlimit : 1 ≤ x.desc.missLimit) (hmiss : x.pulse.missCount = 0) :
    x.pulseTrigger = false := by
  rw [Stream.pulseTrigger, hmiss, decide_eq_false (by omega), Bool.and_false]

/-- A stream whose misses are cleared, its trigger taken from the set. -/
theorem PulseTriggersHold.cleared (hs : PulseTriggersHold s) {n : StreamIx} (hothers : OtherStreams n s t)
    (hset : t.vrd.triggers = s.vrd.triggers.remove (.stream n)) (hdesc : (t.stream n).desc = (s.stream n).desc)
    (hmiss : (t.stream n).pulse.missCount = 0)
    (htimer : (t.stream n).enabled = false → (t.stream n).pulse.timer = .stopped)
    (hqueue : ∀ r ∈ t.commitQueue, (t.stream r.stream).enabled = true) : PulseTriggersHold t := by
  obtain ⟨-, hstream⟩ := pulseTriggersHold_iff.mp hs
  refine pulseTriggersHold_iff.mpr ⟨hqueue, fun m => ?_⟩
  obtain ⟨hhas, hlimit, hrest⟩ := hstream m
  rw [hset, TriggerSet.has_remove]
  by_cases e : m = n
  · subst e
    rw [← hdesc] at hlimit
    refine ⟨?_, hlimit, by rw [hmiss]; omega, fun hen => ⟨hmiss, htimer hen⟩⟩
    rw [standsFor, pulseTrigger_of_no_miss hlimit hmiss]
    simp
  · rw [standsFor, hothers m e]
    refine ⟨?_, hlimit, hrest⟩
    rw [hhas, decide_eq_false (by rintro ⟨⟩; exact e rfl)]
    exact Bool.and_true _

end

/-! ### Pulses (R105, R106) -/

/-- A PULSE record has come early (R105). -/
def Stream.pulseEarly (commit : Clock) (x : Stream) : Bool :=
  match x.pulse.last with
  | some t => decide (elapsed commit t < x.desc.minInterval)
  | none => false

/-- A stream after a PULSE record (R105). -/
def Stream.pulsed (commit : Clock) (x : Stream) : Stream :=
  { x with pulse := { x.pulse with
      early := if x.pulseEarly commit then satInc x.pulse.early else x.pulse.early
      pulses := x.pulse.pulses + 1
      missCount := 0
      last := some commit
      timer := .running commit } }

theorem modStream_congr {s : State} {n : StreamIx} {f g : Stream → Stream} (h : f (s.stream n) = g (s.stream n)) :
    s.modStream n f = s.modStream n g := by
  have hplace : f s.streams[n.1] = g s.streams[n.1] := h
  simp only [State.modStream, vupd, hplace]

/-- A PULSE record, as a change of its stream (R105, R106). -/
theorem pulseRecord_eq (n : StreamIx) (commit : Clock) (s : State) : pulseRecord n commit s
    = leaveTrigger (.stream n) (State.modStream n (Stream.pulsed commit)
        (if (s.stream n).pulseEarly commit then post (streamSource n) .pulseEarly s else s)) := by
  have hstream (early : Bool) : (if early then post (streamSource n) .pulseEarly s else s).stream n = s.stream n := by
    cases early <;> rfl
  refine congrArg (leaveTrigger (.stream n)) (modStream_congr ?_)
  simp only [Stream.pulsed, hstream]
  rfl

/-- A stream after a missed interval (R106). -/
def Stream.missed (now : Clock) (x : Stream) : Stream :=
  { x with pulse := { x.pulse with
      missed := satInc x.pulse.missed
      missCount := min (x.pulse.missCount + 1) 15
      timer := .running now
      last := if min (x.pulse.missCount + 1) 15 = 15 ∧ x.pulse.missCount ≠ 15 then none else x.pulse.last } }

/-- A missed interval posted and counted (R106). -/
def missCounted (n : StreamIx) (s : State) : State :=
  State.modStream n (Stream.missed s.clock) (post (streamSource n) .pulseMissed s)

theorem missPulse_eq (n : StreamIx) (s : State) : missPulse n s
    = if (s.stream n).desc.fence ∧ (s.stream n).pulse.missCount < (s.stream n).desc.missLimit
        ∧ (s.stream n).desc.missLimit ≤ min ((s.stream n).pulse.missCount + 1) 15 then
        joinTrigger (.stream n) (missCounted n s)
      else missCounted n s := by
  have hcounted : missCounted n s = State.modStream n (fun x => { x with pulse := { x.pulse with
      missed := satInc x.pulse.missed
      missCount := min ((s.stream n).pulse.missCount + 1) 15
      timer := .running s.clock
      last := if min ((s.stream n).pulse.missCount + 1) 15 = 15 ∧ x.pulse.missCount ≠ 15 then none else x.pulse.last } })
      (post (streamSource n) .pulseMissed s) := modStream_congr rfl
  rw [hcounted]
  rfl

section
variable {s : State} {n : StreamIx}

/-- The timer that reaches its limit is running, so its stream is in service (R104). -/
theorem pulseDue_enabled (h : pulseDue s n = true) (hs : (s.stream n).PulseSound) : (s.stream n).enabled = true := by
  obtain ⟨-, -, hstopped⟩ := hs
  by_contra hen
  obtain ⟨-, htimer⟩ := hstopped (Bool.eq_false_iff.mpr hen)
  rw [pulseDue, htimer] at h
  cases h

/-- A missed interval without its trigger leaves all of the supervision but the one stream. -/
theorem missCounted_standsFor {k : Trigger} (hk : k.ofBoard = true) : standsFor (missCounted n s) k = standsFor s k := by
  cases k with
  | pair p => rfl
  | stream m => cases hk
  | channelLoss => rfl

/-- The trigger stands after the miss if it stood before, or if this miss has reached the limit (R106). -/
theorem missed_pulseTrigger (now : Clock) {x : Stream} (h : x.pulse.missCount ≤ 15) : (x.missed now).pulseTrigger
    = (x.pulseTrigger || decide (x.desc.fence ∧ x.pulse.missCount < x.desc.missLimit
        ∧ x.desc.missLimit ≤ min (x.pulse.missCount + 1) 15)) := by
  have hreached : x.desc.missLimit ≤ min (x.pulse.missCount + 1) 15 ↔ x.desc.missLimit ≤ x.pulse.missCount
      ∨ x.pulse.missCount < x.desc.missLimit ∧ x.desc.missLimit ≤ min (x.pulse.missCount + 1) 15 := by omega
  show (x.desc.fence && decide (x.desc.missLimit ≤ min (x.pulse.missCount + 1) 15)) = _
  rw [Stream.pulseTrigger, decide_eq_decide.mpr hreached, Bool.decide_or, Bool.and_or_distrib_left]
  cases x.desc.fence <;> simp

theorem missCounted_pairsJudged : PairsJudged (missCounted n s) (missPulse n s) := by
  rw [missPulse_eq]
  exact .ite (joinTrigger_pairsJudged _ _) (.refl _)

theorem missPulse_has (m : StreamIx) : (missPulse n s).vrd.triggers.has (.stream m)
    = (s.vrd.triggers.has (.stream m) || decide (m = n ∧ ((s.stream n).desc.fence
        ∧ (s.stream n).pulse.missCount < (s.stream n).desc.missLimit
        ∧ (s.stream n).desc.missLimit ≤ min ((s.stream n).pulse.missCount + 1) 15))) := by
  rw [missPulse_eq]
  split
  · next hc =>
    rw [joinTrigger_streams]
    refine congrArg (s.vrd.triggers.has (.stream m) || ·) (decide_eq_decide.mpr ?_)
    exact ⟨fun e => ⟨Trigger.stream.inj e, hc⟩, fun e => congrArg _ e.1⟩
  · next hc =>
    rw [decide_eq_false fun k => hc k.2, Bool.or_false]
    rfl

theorem missPulse_pulseTriggersHold (h : pulseDue s n = true) (hs : PulseTriggersHold s) :
    PulseTriggersHold (missPulse n s) := by
  obtain ⟨hqueue, hstream⟩ := pulseTriggersHold_iff.mp hs
  have hjudged := missCounted_pairsJudged (s := s) (n := n)
  refine pulseTriggersHold_iff.mpr ⟨fun r hr => ?_, fun m => ?_⟩
  · rw [hjudged.queue] at hr
    rw [hjudged.stream, missCounted, modStream_place]
    split <;> exact hqueue r hr
  · rw [missPulse_has, standsFor, hjudged.stream, missCounted, modStream_place]
    obtain ⟨hhas, hlimit, hmiss, -⟩ := hstream m
    by_cases e : m = n
    · subst e
      rw [if_pos rfl, post_stream, missed_pulseTrigger _ hmiss, hhas]
      refine ⟨by simp [standsFor], hlimit, Nat.min_le_right _ _, fun hen => ?_⟩
      exact absurd (hen.symm.trans (pulseDue_enabled h (hstream m).2)) nofun
    · rw [if_neg e, decide_eq_false fun k => e k.1, Bool.or_false]
      exact hstream m

/-- The miss that raises the count to the limit makes the stream's trigger join (R106, R131). -/
theorem missPulse_supervised (h : pulseDue s n = true) : Supervised s (missPulse n s) where
  health := missCounted_pairsJudged.health
  triggers hs := by
    obtain ⟨hempty, hstands⟩ := triggersHold_iff.mp hs
    have hcounted (k : Trigger) (hk : k.ofBoard = true) : s.vrd.triggers.has k = standsFor (missCounted n s) k := by
      rw [missCounted_standsFor hk, hstands k hk]
    rw [missPulse_eq]
    split
    · exact joinTrigger_triggersHold hempty (fun k hk _ => hcounted k hk) nofun
    · exact triggersHold_iff.mpr ⟨hempty, hcounted⟩
  pulse := missPulse_pulseTriggersHold h
  quiet hs := missCounted_pairsJudged.boardResetQuiet fun hb => by
    obtain ⟨hqueue, hasm, hrest⟩ := hs hb
    refine ⟨hqueue, fun m => ?_, hrest⟩
    rw [missCounted, modStream_place]
    split <;> exact hasm m

end

/-! ### Records (R50) -/

/-- What the handling of a record leaves: the invariants of the supervision, those of the pulses where the record's stream is in
service; the board reset has no record to handle. -/
structure RecordTaken (serving : Prop) (s t : State) : Prop where
  brst : t.tap.brstAsserted = s.tap.brstAsserted
  health : HealthHolds s → HealthHolds t
  triggers : TriggersHold s → TriggersHold t
  pulse : serving → PulseTriggersHold s → PulseTriggersHold t

theorem Undisturbed.recordTaken {serving : Prop} {s t : State} (h : Undisturbed False s t) : RecordTaken serving s t :=
  ⟨h.brst, h.healthHolds, h.triggersHold, fun _ => h.pulseTriggersHold⟩

theorem Supervised.recordTaken {serving : Prop} {s t : State} (h : Supervised s t)
    (hb : t.tap.brstAsserted = s.tap.brstAsserted) : RecordTaken serving s t := ⟨hb, h.health, h.triggers, fun _ => h.pulse⟩

theorem RecordTaken.trans {serving : Prop} {s t u : State} (h : RecordTaken serving s t) (k : RecordTaken serving t u) :
    RecordTaken serving s u :=
  ⟨k.brst.trans h.brst, k.health ∘ h.health, k.triggers ∘ h.triggers, fun hs => k.pulse hs ∘ h.pulse hs⟩

theorem pulseRecord_taken (n : StreamIx) (commit : Clock) (s : State) :
    RecordTaken ((s.stream n).enabled = true) s (pulseRecord n commit s) := by
  rw [pulseRecord_eq]
  have hposted : Undisturbed False s (if (s.stream n).pulseEarly commit then post (streamSource n) .pulseEarly s else s) :=
    .ite (.post _ _ s) (.refl s)
  have henabled := (hposted.stream n).enabled
  refine hposted.recordTaken.trans ?_
  generalize (if (s.stream n).pulseEarly commit then post (streamSource n) .pulseEarly s else s) = u at *
  refine ⟨rfl, id, fun hs => hs.leave_stream n rfl rfl fun k hk => ?_, fun hen hs => ?_⟩
  · cases k with
    | pair p => rfl
    | stream m => cases hk
    | channelLoss => rfl
  · have hkept (m : StreamIx) : ((u.modStream n (Stream.pulsed commit)).stream m).enabled = (u.stream m).enabled := by
      rw [modStream_place]; split <;> rfl
    have hat : (u.modStream n (Stream.pulsed commit)).stream n = (u.stream n).pulsed commit := modStream_same ..
    refine hs.cleared (n := n) (fun m hm => modStream_other u hm _) rfl ?_ ?_ ?_ fun r hr => ?_
    · exact (congrArg Stream.desc hat).trans rfl
    · exact (congrArg (fun x => x.pulse.missCount) hat).trans rfl
    · intro k
      rw [show (leaveTrigger (.stream n) (u.modStream n (Stream.pulsed commit))).stream n = (u.stream n).pulsed commit from hat,
        Stream.pulsed] at k
      exact absurd (k.symm.trans (henabled.trans hen)) nofun
    · exact (hkept _).trans (hs.1 r hr)

theorem handleCompletion_taken {serving : Prop} (p : PairIx) (r : Record) (s : State) :
    RecordTaken serving s (handleCompletion p r s) := by
  have htaint := taintWindow_undisturbed (still := False) p r s
  unfold handleCompletion; dsimp only; split
  · have hmatch := (matchCompletion_undisturbed p r not_false).comp htaint
    exact (Undisturbed.ite ((appendEcho_undisturbed not_false p r).comp hmatch) hmatch).recordTaken
  · refine htaint.recordTaken.trans ((quiesceRecord_supervised _).recordTaken ?_)
    unfold quiesceRecord; dsimp only; split <;> rfl
  · refine htaint.recordTaken.trans (resumeRecord_supervised.recordTaken ?_)
    unfold resumeRecord; split <;> rfl
  · exact (Undisturbed.refl s).recordTaken

theorem handleRecord_taken (r : Record) (s : State) :
    RecordTaken ((s.stream r.stream).enabled = true) s (handleRecord r s) := by
  have hnone : RecordTaken ((s.stream r.stream).enabled = true) s s := (Undisturbed.refl s).recordTaken
  unfold handleRecord; split
  · exact pulseRecord_taken _ _ s
  · split
    · exact hnone
    · split
      · exact (handleRequest_undisturbed _ r not_false).recordTaken
      · exact hnone
  · split
    · exact hnone
    · split
      · exact handleCompletion_taken _ r s
      · exact hnone
  · exact hnone

/-- COR_TAKE_RECORD: the head of the queue is of a stream in service (R19), and there is none while BRST_N is asserted (R40). -/
theorem corTakeRecord_supervised (s : State) : Leads (Supervised s) (execCorTakeRecord s) := by
  unfold execCorTakeRecord; split
  · exact .next (.refl s)
  · next r rest hq =>
    have htaken := (handleRecord_taken r { s with commitQueue := rest }).trans
      (prbTake_undisturbed (fun k => k.elim) (Undisturbed.refl _)).recordTaken
    refine .next ⟨htaken.health, htaken.triggers, fun hs => ?_, fun hs k => ?_⟩
    · obtain ⟨hqueue, hstream⟩ := hs
      rw [hq] at hqueue
      exact htaken.pulse (hqueue r (List.mem_cons_self ..)) ⟨fun x hx => hqueue x (List.mem_cons_of_mem _ hx), hstream⟩
    · obtain ⟨hnil, -⟩ := hs (htaken.brst.symm.trans k)
      rw [hq] at hnil; cases hnil

end Sys2Proof.Machine
end

/-! ## Discontinuities and the managers' commands, and what every step keeps of the supervision -/
section

namespace Sys2Proof.Machine

/-! ### The discontinuity (R13, R40, R69, R103, R107, R128) -/

section
variable {s : State}

theorem discontinued_sound {brst : Bool} {q : Pair} (h : q.Sound brst) : q.discontinued.Sound true := by
  obtain ⟨hwindow, -, hquiesce, hsuspect, hhistory⟩ := h
  have hheld : ∀ w, q.hev.window.map EvalWindow.hold = some w → w.held = true := fun w hw => by
    obtain ⟨v, -, rfl⟩ := Option.map_eq_some_iff.mp hw
    rfl
  have hsome : (q.hev.window.map EvalWindow.hold).isSome = q.health.enabled := (Option.isSome_map ..).trans hwindow
  have hnone (hoff : q.health.enabled = false) : ∀ w, q.hev.window = some w → w.held = true := fun w hw => by
    rw [hw, hoff] at hwindow; cases hwindow
  cases hh : q.health with
  | healthy | watch | suspect | quiesced =>
    simp only [Pair.discontinued, hh]
    exact ⟨hsome.trans (by simp [hh, Health.enabled]), hheld, rfl, fun _ => ⟨rfl, rfl⟩, Nat.zero_le _⟩
  | failed =>
    simp only [Pair.discontinued, hh]
    exact ⟨hsome, hheld, hquiesce, fun _ => hsuspect (by rw [hh]; decide), hhistory⟩
  | draining =>
    simp only [Pair.discontinued, hh]
    exact ⟨hwindow.trans (by rw [hh]; rfl), hnone (by rw [hh]; rfl), hquiesce.trans (by rw [hh]; rfl),
      fun _ => hsuspect (by rw [hh]; decide), hhistory⟩
  | disabled =>
    simp only [Pair.discontinued, hh]
    exact ⟨hwindow, hnone (by rw [hh]; rfl), hquiesce, fun _ => hsuspect (by rw [hh]; decide), hhistory⟩

theorem discontinued_fences (q : Pair) : q.discontinued.fences = q.fences := by
  cases hh : q.health with
  | healthy | watch | suspect | quiesced | draining => simp only [Pair.discontinued, Pair.fences, hh]; rfl
  | failed | disabled => simp only [Pair.discontinued, hh]; rfl

theorem discontinued_bare (q : Pair) : q.discontinued.Bare := by
  unfold Pair.discontinued
  split <;> exact ⟨rfl, rfl⟩

/-- A HELD window runs again (R103). -/
theorem restarted_sound {q : Pair} {now : Clock} (h : q.Sound true) :
    (q.modWindow (EvalWindow.restarted now)).Sound false := by
  obtain ⟨hwindow, hheld, hrest⟩ := h
  refine ⟨(Option.isSome_map ..).trans hwindow, fun w hw => ?_, hrest⟩
  obtain ⟨v, hv, rfl⟩ := Option.map_eq_some_iff.mp hw
  rw [EvalWindow.restarted, if_pos (hheld v hv)]

/-- The start of a discontinuity leaves every pair's record sound, its window HELD. -/
theorem startDiscontinuity_sound {brst : Bool} {p : PairIx} (h : (s.pair p).Sound brst) :
    ((startDiscontinuity s).pair p).Sound true := by
  rw [startDiscontinuity_pair]
  exact discontinued_sound (((flushEcho_undisturbed (still := False) s).pair p).sound h)

theorem startDiscontinuity_brst (s : State) : (startDiscontinuity s).tap.brstAsserted = s.tap.brstAsserted :=
  (flushEcho_undisturbed (still := False) s).brst

theorem startDiscontinuity_triggersHold (h : TriggersHold s) : TriggersHold (startDiscontinuity s) := by
  have hflushed := flushEcho_undisturbed (still := False) s
  refine (hflushed.triggersHold h).streams_end rfl (fun k hk => ?_) (fun n hn => ?_) fun k hk => ?_
  · cases k with
    | pair p => rfl
    | stream n => cases hk
    | channelLoss => rfl
  · exact absurd hn (by simp [startDiscontinuity, TriggerSet.has])
  · cases k with
    | pair p =>
      rw [standsFor, startDiscontinuity_pair]
      exact discontinued_fences _
    | stream n => cases hk
    | channelLoss => rfl

theorem startDiscontinuity_pulseTriggersHold (h : PulseTriggersHold s) : PulseTriggersHold (startDiscontinuity s) := by
  obtain ⟨-, hstream⟩ := pulseTriggersHold_iff.mp ((flushEcho_undisturbed (still := False) s).pulseTriggersHold h)
  refine pulseTriggersHold_iff.mpr ⟨nofun, fun n => ?_⟩
  obtain ⟨-, hlimit, -, hstopped⟩ := hstream n
  rw [standsFor, startDiscontinuity_stream, pulseTrigger_of_no_miss (x := ((flushEcho s).stream n).discontinued) hlimit rfl]
  refine ⟨by simp [startDiscontinuity, TriggerSet.has], hlimit, Nat.zero_le _, fun hen => ⟨rfl, ?_⟩⟩
  obtain ⟨-, htimer⟩ := hstopped hen
  simp only [Stream.discontinued, htimer]

/-- A discontinuity leaves nothing of the traffic before it. -/
theorem startDiscontinuity_quiet (s : State) : BoardResetQuiet (startDiscontinuity s) := fun _ => by
  refine ⟨rfl, fun n => ?_, fun p => ?_, flushEcho_empty s⟩
  · rw [startDiscontinuity_stream]; rfl
  · rw [startDiscontinuity_pair]; exact discontinued_bare _

theorem restarted_pulseSound {now : Clock} {x : Stream} (h : x.PulseSound) :
    (x.restarted now).PulseSound ∧ (x.restarted now).pulseTrigger = x.pulseTrigger
      ∧ (x.restarted now).enabled = x.enabled := by
  obtain ⟨hlimit, hmiss, hstopped⟩ := h
  unfold Stream.restarted; split
  · next hen => exact ⟨⟨hlimit, hmiss, fun k => absurd (k.symm.trans hen) nofun⟩, rfl, rfl⟩
  · exact ⟨⟨hlimit, hmiss, hstopped⟩, rfl, rfl⟩

theorem endDiscontinuity_triggersHold (h : TriggersHold s) : TriggersHold (endDiscontinuity s) :=
  h.streams_end rfl (fun _ _ => rfl) (fun _ => id) fun k hk => by
    cases k with
    | pair p => rw [standsFor, endDiscontinuity_pair]; rfl
    | stream n => cases hk
    | channelLoss => rfl

theorem endDiscontinuity_pulseTriggersHold (h : PulseTriggersHold s) : PulseTriggersHold (endDiscontinuity s) := by
  obtain ⟨hqueue, hstream⟩ := pulseTriggersHold_iff.mp h
  refine pulseTriggersHold_iff.mpr ⟨fun r hr => ?_, fun n => ?_⟩
  · obtain ⟨-, -, hen⟩ := restarted_pulseSound (now := s.clock) (hstream r.stream).2
    rw [endDiscontinuity_stream, hen]
    exact hqueue r hr
  · obtain ⟨hsound, htrigger, -⟩ := restarted_pulseSound (now := s.clock) (hstream n).2
    rw [standsFor, endDiscontinuity_stream, htrigger]
    exact ⟨(hstream n).1, hsound⟩

/-- A discontinuity that ends at once (R11). -/
theorem discontinuity_supervised (hb : s.tap.brstAsserted = false) :
    Supervised s (endDiscontinuity (startDiscontinuity s)) := by
  have hreleased : (endDiscontinuity (startDiscontinuity s)).tap.brstAsserted = false :=
    (startDiscontinuity_brst s).trans hb
  refine ⟨fun h => healthHolds_iff.mpr fun p => ?_,
    fun h => endDiscontinuity_triggersHold (startDiscontinuity_triggersHold h),
    fun h => endDiscontinuity_pulseTriggersHold (startDiscontinuity_pulseTriggersHold h),
    fun _ k => absurd (hreleased.symm.trans k) nofun⟩
  rw [hreleased, endDiscontinuity_pair]
  exact restarted_sound (startDiscontinuity_sound (h p))

/-- The held discontinuity starts (R12, R13). -/
theorem boardReset_supervised (s : State) :
    Supervised s (startDiscontinuity (s.modTap fun t => { t with brstAsserted := true })) where
  health h := healthHolds_iff.mpr fun p => by
    rw [startDiscontinuity_brst]
    exact startDiscontinuity_sound (s := s.modTap fun t => { t with brstAsserted := true }) (h p)
  triggers h := startDiscontinuity_triggersHold (s := s.modTap fun t => { t with brstAsserted := true }) h
  pulse h := startDiscontinuity_pulseTriggersHold (s := s.modTap fun t => { t with brstAsserted := true }) h
  quiet _ := startDiscontinuity_quiet _

/-- The held discontinuity ends (R12, R13). -/
theorem boardRelease_supervised (hb : s.tap.brstAsserted = true) :
    Supervised s (endDiscontinuity (s.modTap fun t => { t with brstAsserted := false })) where
  health h := healthHolds_iff.mpr fun p => by
    rw [endDiscontinuity_pair]
    exact restarted_sound (hb ▸ h p)
  triggers h := endDiscontinuity_triggersHold (s := s.modTap fun t => { t with brstAsserted := false }) h
  pulse h := endDiscontinuity_pulseTriggersHold (s := s.modTap fun t => { t with brstAsserted := false }) h
  quiet _ k := by cases k

end

/-! ### The channel clock (R10, R11, R132) -/

section
variable {s : State}

theorem lossDue_not_lost (hdue : lossDue s = true) : lossStands s = false := by
  simp only [lossDue, Bool.and_eq_true, decide_eq_true_eq] at hdue
  obtain ⟨⟨hstopped, -⟩, -⟩ := hdue
  rw [lossStands, hstopped]
  rfl

theorem enterLost_pairsJudged (s : State) : PairsJudged (lossCounted s) (enterLost s) := by
  rw [enterLost_eq]
  exact .ite (joinTrigger_pairsJudged _ _) (.refl _)

theorem lossCounted_standsFor {k : Trigger} (hk : k ≠ .channelLoss) : standsFor (lossCounted s) k = standsFor s k := by
  cases k with
  | pair p => rfl
  | stream n => rfl
  | channelLoss => exact absurd rfl hk

/-- The monitor's loss, its trigger with it (R132). -/
theorem enterLost_supervised (hdue : lossDue s = true) : Supervised s (enterLost s) where
  health := (enterLost_pairsJudged s).health
  triggers hs := by
    obtain ⟨hempty, hstands⟩ := triggersHold_iff.mp hs
    have hothers (k : Trigger) (hk : k.ofBoard = true) (hne : k ≠ .channelLoss) :
        s.vrd.triggers.has k = standsFor (lossCounted s) k := by rw [lossCounted_standsFor hne, hstands k hk]
    rw [enterLost_eq]
    split
    · next hf => exact joinTrigger_triggersHold hempty hothers fun _ => hf
    · next hf =>
      refine triggersHold_iff.mpr ⟨hempty, fun k hk => ?_⟩
      by_cases hne : k = .channelLoss
      · subst hne
        refine (hstands _ hk).trans ?_
        rw [standsFor, lossDue_not_lost hdue]
        exact (Bool.eq_false_iff.mpr hf).symm
      · exact hothers k hk hne
  pulse := (enterLost_pairsJudged s).pulseTriggersHold fun n => by
    rw [enterLost_eq]
    split
    · rw [joinTrigger_streams]
      exact (Bool.or_eq_left_iff_imp.mpr nofun)
    · rfl
  quiet := (enterLost_pairsJudged s).boardResetQuiet

/-- The channel is back, and its trigger has ceased to stand (R11, R132). -/
theorem channelBack_supervised : Supervised s (channelBack s) where
  health := id
  triggers hs := by
    obtain ⟨hempty, hstands⟩ := triggersHold_iff.mp hs
    refine triggersHold_iff.mpr ⟨fun hv k => ?_, fun k hk => ?_⟩
    · cases k with
      | pair p => exact hempty hv (.pair p)
      | stream n => exact hempty hv (.stream n)
      | channelLoss => rfl
    · cases k with
      | pair p => exact hstands (.pair p) rfl
      | stream n => cases hk
      | channelLoss => rfl
  pulse := id
  quiet := id

theorem returnAfterLoss_supervised (s : State) : Leads (Supervised s) (exec .returnAfterLoss s) := by
  by_cases hlost : s.tap.presence = .lost
  · rw [exec_returnAfterLoss hlost]
    refine .next ?_
    split
    · exact channelBack_supervised
    · next hb => exact (discontinuity_supervised (s := channelBack s) (Bool.eq_false_iff.mpr hb)).comp channelBack_supervised
  · simp only [exec, execReturnAfterLoss, if_neg hlost]
    exact .next (.refl s)

end

/-! ### Streams configured (R17, R18, R19) -/

section
variable {s : State} {n : StreamIx}

/-- A disabled stream without a miss is configured: it has no trigger before nor after. -/
theorem modStream_disabled_supervised {f : Stream → Stream} (hen : (s.stream n).enabled = false)
    (hlimit : 1 ≤ (s.stream n).desc.missLimit → 1 ≤ (f (s.stream n)).desc.missLimit)
    (hmiss : (s.stream n).pulse.missCount = 0 → (f (s.stream n)).pulse.missCount = 0)
    (htimer : (f (s.stream n)).enabled = false → (s.stream n).pulse.timer = .stopped →
      (f (s.stream n)).pulse.timer = .stopped)
    (hbare : (s.stream n).assemblies = [] → (f (s.stream n)).assemblies = []) : Supervised s (s.modStream n f) where
  health := id
  triggers hs := hs.streams_end rfl (fun _ _ => rfl) (fun _ => id) fun k hk => by
    cases k with
    | pair p => rfl
    | stream m => cases hk
    | channelLoss => rfl
  pulse hs := by
    obtain ⟨hqueue, hstream⟩ := pulseTriggersHold_iff.mp hs
    obtain ⟨hhas, klimit, -, hoff⟩ := hstream n
    obtain ⟨kmiss, ktimer⟩ := hoff hen
    refine pulseTriggersHold_iff.mpr ⟨fun r hr => ?_, fun m => ?_⟩
    · have hr := hqueue r hr
      rw [modStream_other]
      · exact hr
      · intro e
        rw [e, hen] at hr; cases hr
    · by_cases e : m = n
      · subst e
        rw [standsFor, modStream_same, pulseTrigger_of_no_miss (hlimit klimit) (hmiss kmiss)]
        refine ⟨hhas.trans (pulseTrigger_of_no_miss klimit kmiss), hlimit klimit, by rw [hmiss kmiss]; omega, fun k =>
          ⟨hmiss kmiss, htimer k ktimer⟩⟩
      · rw [standsFor, modStream_other s e]
        exact hstream m
  quiet hs hb := by
    obtain ⟨hqueue, hasm, hrest⟩ := hs hb
    refine ⟨hqueue, fun m => ?_, hrest⟩
    rw [modStream_place]
    split
    · next e => subst e; exact hbare (hasm m)
    · exact hasm m

theorem rebuildLookup_undisturbed (still : Prop) (s : State) : Undisturbed still s (rebuildLookup s) := .same

theorem takenSetStream_supervised (o : SetStreamOps) (s : State) : Supervised s (takenSetStream o s).1 := by
  unfold takenSetStream; split
  · exact .refl s
  split
  · exact .refl s
  next hen =>
  split
  · exact .refl s
  next d hd =>
  split
  · exact .refl s
  obtain ⟨-, -, -, -, -, -, -, -, -, -, -, -, hlimit, -⟩ := tuned_stream_inRange hd
  exact modStream_disabled_supervised (Bool.eq_false_iff.mpr hen) (fun _ => hlimit) id (fun _ => id) id

theorem takenEnableStream_supervised (b : Byte) (s : State) : Supervised s (takenEnableStream b s).1 := by
  unfold takenEnableStream; split
  · exact .refl s
  split
  · exact .refl s
  next hen =>
  split
  · exact .refl s
  exact .comp (rebuildLookup_undisturbed _ _).supervised
    (modStream_disabled_supervised (Bool.eq_false_iff.mpr hen) id (fun _ => rfl) nofun fun _ => rfl)

/-- A stream leaves service with its records and its trigger (R19, R106). -/
theorem streamStopped_supervised (n : StreamIx) (s : State) : Supervised s (streamStopped n s) where
  health := id
  triggers hs := hs.leave_stream n rfl rfl fun k hk => by
    cases k with
    | pair p => rfl
    | stream m => cases hk
    | channelLoss => rfl
  pulse hs := by
    have hat : (streamStopped n s).stream n = (s.stream n).stopped := modStream_same ..
    have hother {m : StreamIx} (hm : m ≠ n) : (streamStopped n s).stream m = s.stream m := modStream_other s hm _
    refine hs.cleared (fun m hm => hother hm) rfl (by rw [hat]; rfl) (by rw [hat]; rfl) (fun _ => by rw [hat]; rfl) ?_
    intro r hr
    obtain ⟨hin, hne⟩ := List.mem_filter.mp hr
    rw [hother (of_decide_eq_true hne)]
    exact hs.1 r hin
  quiet hs hb := by
    obtain ⟨hqueue, hasm, hrest⟩ := hs hb
    refine ⟨?_, fun m => ?_, hrest⟩
    · show s.commitQueue.filter _ = []
      rw [hqueue]; rfl
    · show ((s.modStream n Stream.stopped).stream m).assemblies = []
      rw [modStream_place]
      split
      · rfl
      · exact hasm m

theorem takenDisableStream_supervised (b : Byte) (s : State) : Supervised s (takenDisableStream b s).1 := by
  unfold takenDisableStream; split
  · exact .refl s
  next n _ =>
  split
  · exact .comp (prbTake_undisturbed id (withdrawStream_undisturbed _ n)).supervised (streamStopped_supervised n s)
  · exact .refl s

end

/-! ### Pairs configured (R43 to R46, R97) -/

section
variable (s : State)

theorem takenSetPair_supervised (o : SetPairOps) : Supervised s (takenSetPair o s).1 := by
  unfold takenSetPair; split
  · exact .refl s
  split
  · exact .refl s
  next hdisabled =>
  have hhealth := Decidable.not_not.mp hdisabled
  split
  · dsimp only
    split
    · exact .refl s
    split
    · exact .refl s
    split
    · exact .refl s
    refine .comp (recomputeT_undisturbed _ _).supervised (.modPair (.moved ?_ ?_ rfl rfl id))
    · rw [hhealth]; decide
    · dsimp only; rw [hhealth]; decide
  · exact .refl s

/-- A pair put into service holds a fresh record (R45, R102). -/
theorem started_sound (s : State) (q : Pair) : (q.started (freshWindow s)).Sound s.tap.brstAsserted :=
  ⟨rfl, fun _ hw => Option.some.inj hw ▸ rfl, rfl, fun _ => ⟨rfl, rfl⟩, Nat.zero_le _⟩

theorem takenEnablePair_supervised (b : Byte) : Supervised s (takenEnablePair b s).1 := by
  unfold takenEnablePair; split
  · exact .refl s
  split
  · exact .refl s
  next hdisabled =>
  split
  · exact .refl s
  refine .comp (recomputeT_undisturbed _ _).supervised
    (.modPair (.moved ?_ nofun rfl rfl fun _ => started_sound s _))
  rw [Decidable.not_not.mp hdisabled]; decide

theorem retired_sound {brst : Bool} {q : Pair} (h : q.Sound brst) : q.retired.Sound brst := by
  obtain ⟨-, -, -, -, hhistory⟩ := h
  exact ⟨rfl, nofun, rfl, fun _ => ⟨rfl, rfl⟩, hhistory⟩

theorem takenRetirePair_supervised (b : Byte) : Supervised s (takenRetirePair b s).1 := by
  unfold takenRetirePair; split
  · exact .refl s
  next p _ =>
  have hretired (hfailed : (s.pair p).health ≠ .failed) : Supervised s (settleDraining p (s.modPair p Pair.retired)) :=
    .comp (settleDraining_undisturbed p _).supervised (.modPair (.moved hfailed nofun rfl rfl retired_sound))
  split
  · exact .refl s
  · exact .refl s
  · exact .refl s
  all_goals next hh => exact hretired (by rw [hh]; decide)

/-- A FAILED pair is cleared, and its trigger with it (R97, R131). -/
theorem cleared_supervised {p : PairIx} (hfailed : (s.pair p).health = .failed) :
    Supervised s (if (s.pair p).desc.fence then leaveTrigger (.pair p) (s.modPair p (Pair.cleared (freshWindow s)))
      else s.modPair p (Pair.cleared (freshWindow s))) := by
  have hsound (h : (s.pair p).Sound s.tap.brstAsserted) : ((s.pair p).cleared (freshWindow s)).Sound s.tap.brstAsserted := by
    obtain ⟨-, -, hquiesce, -, -⟩ := h
    rw [hfailed] at hquiesce
    exact ⟨rfl, fun _ hw => Option.some.inj hw ▸ rfl, hquiesce, fun _ => ⟨rfl, rfl⟩, Nat.zero_le _⟩
  split
  · have hjudged : PairsJudged s (s.modPair p (Pair.cleared (freshWindow s))) := .modPair (fun hs => hsound (hs p)) id
    refine ⟨hjudged.health, fun hs => ?_, ?_, hjudged.boardResetQuiet⟩
    · obtain ⟨hempty, hstands⟩ := triggersHold_iff.mp hs
      have hremoved (k : Trigger) := TriggerSet.has_remove (.pair p) s.vrd.triggers k
      refine triggersHold_iff.mpr ⟨fun hv k => (hremoved k).trans (by rw [hempty hv k]; rfl), fun k hk =>
        (hremoved k).trans ?_⟩
      rw [hstands k hk]
      cases k with
      | pair r =>
        show _ = ((s.modPair p (Pair.cleared (freshWindow s))).pair r).fences
        by_cases e : r = p
        · subst e
          rw [modPair_same]
          simp [Pair.fences, Pair.cleared]
        · rw [modPair_other s e]
          simp [e, standsFor]
      | stream n => cases hk
      | channelLoss => exact Bool.and_true _
    · exact fun hs => PairsJudged.pulseTriggersHold
        (hjudged.trans (.modVrd (fun v => { v with triggers := v.triggers.remove (.pair p) }) _))
        (fun n => (TriggerSet.has_remove (.pair p) s.vrd.triggers (.stream n)).trans (Bool.and_true _)) hs
  · next hf => exact .modPair ⟨hsound, by simp [Pair.fences, Pair.cleared, hf], id⟩

theorem takenClearPair_supervised (b : Byte) : Supervised s (takenClearPair b s).1 := by
  unfold takenClearPair; split
  · exact .refl s
  split
  · exact .refl s
  next hfailed => exact cleared_supervised s (Decidable.not_not.mp hfailed)

end

end Sys2Proof.Machine
end

/-! ## Every step keeps health, the triggers and the quiet of the board reset -/
section

namespace Sys2Proof.Machine

/-! ### The verdict's settings (R129, R130, R132) -/

/-- The settings written, nothing acted on. -/
def withSettings (v : VerdictSettings) (s : State) : State := s.modVrd fun x => { x with settings := v }

section
variable {s : State} {v : VerdictSettings}

theorem withSettings_standsFor {k : Trigger} (hk : k ≠ .channelLoss) : standsFor (withSettings v s) k = standsFor s k := by
  cases k with
  | pair p => rfl
  | stream n => rfl
  | channelLoss => exact absurd rfl hk

/-- Fence-on-loss written makes a difference to the triggers only while the monitor is LOST. -/
theorem withSettings_supervised (h : lossStands s = true → v.fenceOnLoss = s.vrd.settings.fenceOnLoss) :
    Supervised s (withSettings v s) where
  health := id
  triggers hs := by
    obtain ⟨hempty, hstands⟩ := triggersHold_iff.mp hs
    refine triggersHold_iff.mpr ⟨hempty, fun k hk => (hstands k hk).trans ?_⟩
    by_cases e : k = .channelLoss
    · subst e
      show (lossStands s && s.vrd.settings.fenceOnLoss) = (lossStands s && v.fenceOnLoss)
      cases hl : lossStands s with
      | false => rfl
      | true => rw [h hl]
    · rw [withSettings_standsFor e]
  pulse := id
  quiet := id

/-- With channel loss standing, its trigger joins (R130). -/
theorem joinLoss_supervised (h : standsFor (withSettings v s) .channelLoss = true) :
    Supervised s (joinTrigger .channelLoss (withSettings v s)) where
  health := (joinTrigger_pairsJudged .channelLoss (withSettings v s)).health
  triggers hs := by
    obtain ⟨hempty, hstands⟩ := triggersHold_iff.mp hs
    refine joinTrigger_triggersHold hempty (fun k hk e => ?_) fun _ => h
    rw [withSettings_standsFor e]
    exact hstands k hk
  pulse := (joinTrigger_pairsJudged .channelLoss (withSettings v s)).pulseTriggersHold fun n => by
    rw [joinTrigger_streams]
    exact Bool.or_eq_left_iff_imp.mpr nofun
  quiet := (joinTrigger_pairsJudged .channelLoss (withSettings v s)).boardResetQuiet

/-- With fence-on-loss off, the trigger of channel loss leaves the set (R130). -/
theorem leaveLoss_supervised (h : v.fenceOnLoss = false) : Supervised s (leaveTrigger .channelLoss (withSettings v s)) where
  health := id
  triggers hs := by
    obtain ⟨hempty, hstands⟩ := triggersHold_iff.mp hs
    have hremoved (k : Trigger) := TriggerSet.has_remove .channelLoss s.vrd.triggers k
    refine triggersHold_iff.mpr ⟨fun hv k => (hremoved k).trans (by rw [hempty hv k]; rfl), fun k hk => (hremoved k).trans ?_⟩
    by_cases e : k = .channelLoss
    · subst e
      show _ = (lossStands s && v.fenceOnLoss)
      simp [h]
    · rw [decide_eq_false e, hstands k hk, ← withSettings_standsFor (v := v) e]
      exact Bool.and_true _
  pulse := PairsJudged.pulseTriggersHold (PairsJudged.modVrd (fun x =>
    { x with settings := v, triggers := x.triggers.remove .channelLoss }) s) fun n =>
      (TriggerSet.has_remove .channelLoss s.vrd.triggers (.stream n)).trans (Bool.and_true _)
  quiet := id

/-- The trigger of channel loss follows fence-on-loss (R130). -/
theorem lossFence_supervised (was : Bool) (h : was = v.fenceOnLoss → v.fenceOnLoss = s.vrd.settings.fenceOnLoss) :
    Supervised s (if lossStands (withSettings v s) then
      if ¬ was ∧ (withSettings v s).vrd.settings.fenceOnLoss then joinTrigger .channelLoss (withSettings v s)
      else if was ∧ ¬ (withSettings v s).vrd.settings.fenceOnLoss then leaveTrigger .channelLoss (withSettings v s)
      else withSettings v s
    else withSettings v s) := by
  split
  · next hlost =>
    split
    · next hc => exact joinLoss_supervised (by rw [standsFor, hlost, hc.2]; rfl)
    · next hjoin =>
      split
      · next hc => exact leaveLoss_supervised (Bool.eq_false_iff.mpr hc.2)
      · next hleave =>
        refine withSettings_supervised fun _ => h (Bool.eq_iff_iff.mpr ⟨fun hwas => ?_, fun hnow => ?_⟩)
        · exact by_contra fun k => hleave ⟨hwas, k⟩
        · exact by_contra fun k => hjoin ⟨k, hnow⟩
  · next hlost => exact withSettings_supervised fun k => absurd k hlost

theorem actOnLossSettings_supervised : Supervised s (actOnLossSettings s.vrd.settings.fenceOnLoss (withSettings v s)) := by
  unfold actOnLossSettings; dsimp only
  by_cases hdue : lossDue (withSettings v s) = true
  · rw [if_pos hdue]
    have hset : Supervised s (withSettings v s) := withSettings_supervised fun k =>
      absurd ((lossDue_not_lost hdue).symm.trans k) nofun
    exact (hset.trans (enterLost_supervised hdue)).trans
      (lossFence_supervised (v := (enterLost (withSettings v s)).vrd.settings) _ fun _ => rfl)
  · rw [if_neg hdue]
    exact lossFence_supervised _ Eq.symm

theorem actOnHoldoffLimit_supervised (s : State) : Supervised s (actOnHoldoffLimit s) := by
  unfold actOnHoldoffLimit; split
  · next h hv =>
    exact .ite (fun _ => (releaseHoldoff_undisturbed hv).supervised)
      (.ite (fun _ => (passLimit_triggersJudged hv).supervised) (.refl s))
  · exact .refl s

theorem actOnReleaseSettle_supervised (s : State) : Supervised s (actOnReleaseSettle s) := by
  unfold actOnReleaseSettle; split
  · next h hv => exact .ite (fun _ => (releaseHoldoff_undisturbed hv).supervised) (.refl s)
  · exact .refl s

theorem actOnFactor_supervised (s : State) : Supervised s (actOnFactor s) := by
  unfold actOnFactor; split
  · exact .ite (fun _ => (setFactor_undisturbed s _).supervised) (.refl s)
  · exact .refl s

theorem takenSetVerdict_supervised (o : SetVerdictOps) (s : State) : Supervised s (takenSetVerdict o s).1 := by
  unfold takenSetVerdict; split
  · exact (actOnFactor_supervised _).comp ((actOnReleaseSettle_supervised _).comp ((actOnHoldoffLimit_supervised _).comp
      actOnLossSettings_supervised))
  · exact .refl s

/-- CLEAR_BOARD leaves FAULT only with no trigger standing (R139). -/
theorem takenClearBoard_supervised (s : State) : Supervised s (takenClearBoard s).1 := by
  unfold takenClearBoard; split
  · split
    · next hempty =>
      refine ⟨id, fun hs => ?_, id, id⟩
      obtain ⟨-, hstands⟩ := triggersHold_iff.mp hs
      exact triggersHold_iff.mpr ⟨fun _ => (isEmpty_iff _).mp hempty, hstands⟩
    · exact .refl s
  · exact .refl s
  · exact .refl s

end

/-! ### The other commands of the managers -/

section
variable (s : State)

theorem answer_supervised (m : Manager) (c : Instr) {s : State} {out : State × Reply} (h : Supervised s out.1) :
    Supervised s (answer m c s out) :=
  .ite (fun _ => (Undisturbed.modLink s m _).supervised) (.comp (Undisturbed.modLink _ m _).supervised h)

theorem answer_undisturbed (m : Manager) (c : Instr) {s : State} {out : State × Reply}
    (h : Undisturbed (s.tap.brstAsserted = true) s out.1) : Supervised s (answer m c s out) :=
  answer_supervised m c h.supervised

section
variable {still : Prop}

theorem takenSetSource_undisturbed (o : SetSourceOps) : Undisturbed still s (takenSetSource o s).1 := by
  unfold takenSetSource; split
  · exact .refl s
  · split
    · exact .same
    · exact .refl s

theorem takenSetThreshold_undisturbed (target v : Byte) : Undisturbed still s (takenSetThreshold target v s).1 := by
  unfold takenSetThreshold; split
  · exact .refl s
  · exact .same

theorem takenAcknowledge_undisturbed (m : Manager) (b : Byte) : Undisturbed still s (takenAcknowledge m b s).1 := by
  unfold takenAcknowledge; split
  · exact .refl s
  split
  · exact .refl s
  split
  · exact .refl s
  · exact .same

theorem takenSetTime_undisturbed (sec : BitVec 32) (tick : BitVec 16) : Undisturbed still s (takenSetTime sec tick s).1 := by
  unfold takenSetTime; split
  · exact .refl s
  · exact .same

theorem takenReadStream_undisturbed (b : Byte) : Undisturbed still s (takenReadStream b s).1 := by
  unfold takenReadStream; split <;> exact .refl s

theorem takenReadPair_undisturbed (b : Byte) : Undisturbed still s (takenReadPair b s).1 := by
  unfold takenReadPair; split <;> exact .refl s

theorem takenReadEstimate_undisturbed (b : Byte) : Undisturbed still s (takenReadEstimate b s).1 := by
  unfold takenReadEstimate; split <;> exact .refl s

theorem takenReadSource_undisturbed (b : Byte) : Undisturbed still s (takenReadSource b s).1 := by
  unfold takenReadSource; split <;> exact .refl s

theorem takenReadProbe_undisturbed : Undisturbed still s (takenReadProbe s).1 :=
  .modEcho (f := fun e => { e with single := e.single.collected }) fun _ => id

variable (hb : still → s.tap.brstAsserted = true)
include hb

theorem takenSetProbe_undisturbed (mode : Byte) (limit : BitVec 32) : Undisturbed still s (takenSetProbe mode limit s).1 := by
  unfold takenSetProbe; split
  · exact .refl s
  · next fetch _ =>
    have hset : Undisturbed still s (State.modEcho (fun e =>
        { e with fetchCheck := fetch, waitLimit := clampTo 1 65535 limit.toNat })
        (if s.echo.fetchCheck ∧ ¬ fetch then switchProbeOff s else s)) :=
      .comp (.modEcho fun _ => id) (.ite (switchProbeOff_undisturbed s) (.refl s))
    exact prbTake_undisturbed hb (.ite ((starveInHand_undisturbed _).comp hset) hset)

theorem takenProbeLine_undisturbed (a : BitVec 40) : Undisturbed still s (takenProbeLine a s).1 := by
  unfold takenProbeLine; split
  · exact .refl s
  split
  · exact .refl s
  exact prbTake_undisturbed hb (.modEcho fun _ => id)

end

/-! ### The channel (section 2) -/

theorem rankPrecharge_supervised (rank : BitVec 2) : Leads (Supervised s) (execRankPrecharge rank s) := by
  have h := closeBanks_rowsOnly (banksOfRank rank) s.tap
  have hclosed : Undisturbed (s.tap.brstAsserted = true) s
      (s.modTap fun t => (banksOfRank rank).foldl (fun t b => t.setBank b .closed) t) :=
    .modTap (congrArg Tap.brstAsserted h :) (congrArg Tap.presence h :)
  exact .next hclosed.supervised

/-- A presented burst comes while BRST_N is released (R12). -/
theorem presents_not_asserted {dur : Bool} (h : presents s dur = true) : ¬ s.tap.brstAsserted = true := by
  rw [presents, Bool.and_eq_true, Bool.not_eq_true'] at h
  exact Bool.eq_false_iff.mp h.1

theorem columnCommand_supervised (b : BankAddr) (column : BitVec 10) (op : ColumnOp) (length : BurstLength) (auto : Bool) :
    Leads (Supervised s) (exec (.columnCommand b column op length auto) s) := by
  rw [exec_columnCommand]
  have h := columnResult_only s.straps.amap b column op length auto s.tap
  exact .next (Undisturbed.same (congrArg Tap.brstAsserted h :) (congrArg Tap.presence h :)).supervised

theorem writeDataComplete_supervised (which : Nat) (data : LineData) (mask : ByteMask) (dur : Bool) :
    Leads (Supervised s) (execWriteDataComplete which data mask dur s) := by
  unfold execWriteDataComplete; split
  · exact .next (.refl s)
  · next b _ =>
    refine .next (Undisturbed.supervised ?_)
    have htaken : Undisturbed (s.tap.brstAsserted = true) s (s.modTap fun t =>
        { t with writesInFlight := t.writesInFlight.eraseIdx which, port := t.port.voidedBy b.line }) := .same
    split
    · next hp =>
      exact prbTake_undisturbed id ((presentWrite_undisturbed (presents_not_asserted s hp) _ _ _).comp htaken)
    · exact htaken

theorem readDataComplete_supervised (which : Nat) (data : LineData) (dur : Bool) :
    Leads (Supervised s) (execReadDataComplete which data dur s) := by
  unfold execReadDataComplete; split
  · exact .next (.refl s)
  · refine .next (Undisturbed.supervised ?_)
    have htaken : Undisturbed (s.tap.brstAsserted = true) s (s.modTap fun t =>
        { t with readsInFlight := t.readsInFlight.eraseIdx which }) := .same
    exact .ite (.ite (prbTake_undisturbed id ((presentRead_undisturbed _ _).comp htaken)) (.comp .same htaken)) htaken

/-- A granted line was in hand before (R14). -/
theorem probeGrant_supervised : Leads (Supervised s) (execProbeGrant s) := by
  unfold execProbeGrant; dsimp only; split
  · refine .next (Undisturbed.supervised (.comp (.modEcho fun _ ⟨he, hq, hi⟩ => ⟨he, hq, ?_⟩) .same))
    simp only [modPort_echo, modTap_echo] at hi ⊢
    rw [hi]
  · exact .next (Undisturbed.modPort _ s).supervised

theorem probeDataReturn_supervised (data : LineData) (abandoned : Bool) :
    Leads (Supervised s) (execProbeDataReturn data abandoned s) := by
  unfold execProbeDataReturn; split
  · exact .next (prbTake_undisturbed id ((lineOutcome_undisturbed _ _ _).comp .same)).supervised
  · exact .next (.refl s)

theorem probeGrantReleased_supervised : Leads (Supervised s) (exec .probeGrantReleased s) := by
  by_cases hphase : s.tap.port.phase = .releasing
  · cases hline : s.tap.port.line with
    | some a => rw [exec_probeGrantReleased_held hphase hline]; exact .next (Undisturbed.modPort _ s).supervised
    | none =>
      rw [exec_probeGrantReleased_free hphase hline]
      exact .next (prbTake_undisturbed id ((handOver_undisturbed _).comp (.modPort _ s))).supervised
  · rw [exec_probeGrantReleased_other hphase]; exact .next (Undisturbed.modPort _ s).supervised

/-- A monitor that changes between RUNNING and STOPPED is not LOST before nor after. -/
theorem presence_undisturbed {still : Prop} {f : Tap → Tap} (hbrst : (f s.tap).brstAsserted = s.tap.brstAsserted)
    (hbefore : s.tap.presence ≠ .lost) (hafter : (f s.tap).presence ≠ .lost) : Undisturbed still s (s.modTap f) :=
  { Undisturbed.refl s with
    brst := hbrst
    loss := (decide_eq_false hafter).trans (decide_eq_false hbefore).symm }

theorem clockStop_supervised : Leads (Supervised s) (execClockStop s) := by
  unfold execClockStop; split
  · next hrun =>
    have hstopped : Undisturbed (s.tap.brstAsserted = true) s (s.modTap fun t =>
        { t with presence := .stopped, absence := if t.brstAsserted then 0 else 1 }) :=
      presence_undisturbed s rfl (by rw [hrun]; decide) nofun
    exact .next (prbTake_undisturbed id ((abortByClock_undisturbed _).comp hstopped)).supervised
  · exact .next (.refl s)

theorem clockResume_supervised : Leads (Supervised s) (execClockResume s) :=
  .next (.ite (fun h => (presence_undisturbed s (still := s.tap.brstAsserted = true)
    (f := fun t => { t with presence := .running, absence := 0 }) rfl (by rw [h]; decide) nofun).supervised) (.refl s))

theorem boardResetAsserted_supervised : Leads (Supervised s) (execBoardResetAsserted s) :=
  .next (.ite (fun _ => .refl s) (boardReset_supervised s))

theorem boardResetReleased_supervised : Leads (Supervised s) (execBoardResetReleased s) :=
  .next (.ite (fun hb => (boardRelease_supervised hb).trans (prbTake_undisturbed id (.refl _)).supervised) (.refl s))

/-! ### Time and the part's own judgements -/

theorem tickBoundary_supervised (live : Bool) : Leads (Supervised s) (execTickBoundary live s) := by
  refine .next (Undisturbed.same ?_ ?_).supervised <;> (dsimp only; split <;> rfl)

theorem assemblyAbandon_supervised (n : StreamIx) (slot : Nat) : Leads (Supervised s) (execAssemblyAbandon n slot s) := by
  have hfreed : Undisturbed (s.tap.brstAsserted = true) s (s.modStream n fun x =>
      { x with
        assemblies := freeAssembly slot x.assemblies
        counters := { x.counters with abandoned := satInc x.counters.abandoned } }) :=
    .modStream ⟨rfl, rfl, rfl, fun _ h => by rw [h]; rfl⟩
  unfold execAssemblyAbandon; split
  · exact .next (.refl s)
  · exact .next (Undisturbed.ite (.comp (.post _ _ _) hfreed) (.refl s)).supervised

theorem silence_supervised (n : StreamIx) : Leads (Supervised s) (execSilence n s) :=
  .next (Undisturbed.ite (.comp (.post _ _ _) (.modStream ⟨rfl, rfl, rfl, fun _ => id⟩)) (.refl s)).supervised

/-- There is no entry while BRST_N is asserted (R128). -/
theorem echoOverdue_supervised : Leads (Supervised s) (execEchoOverdue s) := by
  unfold execEchoOverdue; split
  · exact .next (.refl s)
  · next e he =>
    refine .next ((prbTake_undisturbed (fun k => k.elim) (judgeOverdue_undisturbed not_false e)).supervised_traffic fun hs => ?_)
    refine Bool.eq_false_iff.mpr fun hb => ?_
    obtain ⟨-, -, -, hnone, -⟩ := hs hb
    rw [hnone] at he; cases he

theorem grantWaitExpiry_supervised : Leads (Supervised s) (execGrantWaitExpiry s) :=
  .next (Undisturbed.ite (prbTake_undisturbed id (starveInHand_undisturbed s)) (.refl s)).supervised

theorem calmNJudgement_supervised (high : Bool) : Leads (Supervised s) (execCalmNJudgement high s) := by
  have hsensed (v : Bool) : Undisturbed (s.tap.brstAsserted = true) s (s.modVrd fun x => { x with sensedHigh := v }) := .same
  unfold execCalmNJudgement; dsimp only; split
  · exact .next (hsensed _).supervised
  · split
    · next hv =>
      have hentered (v : Bool) : Undisturbed (s.tap.brstAsserted = true) s
          (enterHoldoff (s.modVrd fun x => { x with sensedHigh := v })) :=
        (enterHoldoff_undisturbed (s := s.modVrd fun x => { x with sensedHigh := v }) hv).comp (hsensed v)
      refine .next ?_
      split
      · exact (hentered _).supervised
      · exact (hsensed _).supervised
    · next h hv =>
      have hjudged : Undisturbed (s.tap.brstAsserted = true) s
          (State.modVrd (fun v => { v with verdict := .holdoff (h.judged s.clock (high && !drivingCalm s)) })
            (s.modVrd fun x => { x with sensedHigh := high && !drivingCalm s })) :=
        { Undisturbed.refl s with fault := by rw [hv]; exact ⟨nofun, nofun⟩ }
      exact .next hjudged.supervised
    · exact .next (hsensed _).supervised

theorem holdoffRelease_supervised : Leads (Supervised s) (execHoldoffRelease s) := by
  unfold execHoldoffRelease; split
  · next h hv => exact .next (.ite (fun _ => (releaseHoldoff_undisturbed hv).supervised) (.refl s))
  · exact .next (.refl s)

theorem holdoffLimit_supervised : Leads (Supervised s) (execHoldoffLimit s) := by
  unfold execHoldoffLimit; split
  · next h hv => exact .next (.ite (fun _ => (passLimit_triggersJudged hv).supervised) (.refl s))
  · exact .next (.refl s)

/-! ### The resets -/

theorem AtReset.supervised {t : State} (h : AtReset t) : Supervised s t :=
  ⟨fun _ => h.healthHolds, fun _ => h.triggersHold, fun _ => h.pulseTriggersHold, fun _ => h.boardResetQuiet⟩

theorem resetPart_supervised (l : Manager) : Leads (Supervised s) (exec (.resetPart l) s) := by
  refine .next ?_
  rw [unlessVoid]
  split
  · exact (Undisturbed.modLink s l _).supervised
  · exact (((resetBlocks_atReset s).modLink l _).modLink (otherManager l) _).supervised s

end

/-! ### Every command -/

theorem exec_supervised (c : Instr) (s : State) : Leads (Supervised s) (exec c s) := by
  cases c with
  | powerOnReset straps => exact .next ((powerOnReset_atReset straps _ _ _).supervised s)
  | resetPart l => exact resetPart_supervised s l
  | tickBoundary live => exact tickBoundary_supervised s live
  | rowActivate b row => exact .next (Undisturbed.modTap rfl rfl).supervised
  | bankPrecharge b => exact .next (Undisturbed.modTap rfl rfl).supervised
  | rankPrecharge rank => exact rankPrecharge_supervised s rank
  | columnCommand b column op length auto => exact columnCommand_supervised s b column op length auto
  | writeDataComplete which data mask dur => exact writeDataComplete_supervised s which data mask dur
  | readDataComplete which data dur => exact readDataComplete_supervised s which data dur
  | corTakeRecord => exact corTakeRecord_supervised s
  | assemblyAbandon n slot => exact assemblyAbandon_supervised s n slot
  | silence n => exact silence_supervised s n
  | entryExpiry p => exact .next (examineOpen_undisturbed p s).supervised
  | entryLoss p => exact .next (examineLate_undisturbed p s).supervised
  | windowEnd p => exact .next (.ite (fun _ => endWindow_triggersJudged.supervised) (.refl s))
  | quiesceOverrun p => exact .next (.ite overrunQuiesce_supervised (.refl s))
  | pulseMissed n => exact .next (.ite missPulse_supervised (.refl s))
  | echoOverdue => exact echoOverdue_supervised s
  | probeGrant => exact probeGrant_supervised s
  | probeDataReturn data abandoned => exact probeDataReturn_supervised s data abandoned
  | probeGrantReleased => exact probeGrantReleased_supervised s
  | grantWaitExpiry => exact grantWaitExpiry_supervised s
  | clockStop => exact clockStop_supervised s
  | channelLoss => exact .next (.ite enterLost_supervised (.refl s))
  | clockResume => exact clockResume_supervised s
  | returnAfterLoss => exact returnAfterLoss_supervised s
  | boardResetAsserted => exact boardResetAsserted_supervised s
  | boardResetReleased => exact boardResetReleased_supervised s
  | calmNJudgement high => exact calmNJudgement_supervised s high
  | holdoffRelease => exact holdoffRelease_supervised s
  | holdoffLimit => exact holdoffLimit_supervised s
  | addressCharacter l ch | dataCharacter l ch | frameGapTimeout l | replyComplete l | abandonedReplyStop l =>
    exact .next (Undisturbed.modLink s l _).supervised
  | readSummary l | readVerdict l | claim l | readTime l => exact .next (answer_undisturbed l _ (.refl s))
  | readStream l b => exact .next (answer_undisturbed l _ (takenReadStream_undisturbed s b))
  | readPair l b => exact .next (answer_undisturbed l _ (takenReadPair_undisturbed s b))
  | readEstimate l b => exact .next (answer_undisturbed l _ (takenReadEstimate_undisturbed s b))
  | readSource l b => exact .next (answer_undisturbed l _ (takenReadSource_undisturbed s b))
  | readProbe l => exact .next (answer_undisturbed l _ (takenReadProbe_undisturbed s))
  | setStream l o => exact .next (answer_supervised l _ (takenSetStream_supervised o s))
  | enableStream l b => exact .next (answer_supervised l _ (takenEnableStream_supervised b s))
  | disableStream l b => exact .next (answer_supervised l _ (takenDisableStream_supervised b s))
  | setPair l o => exact .next (answer_supervised l _ (takenSetPair_supervised s o))
  | enablePair l b => exact .next (answer_supervised l _ (takenEnablePair_supervised s b))
  | retirePair l b => exact .next (answer_supervised l _ (takenRetirePair_supervised s b))
  | clearPair l b => exact .next (answer_supervised l _ (takenClearPair_supervised s b))
  | setSource l o => exact .next (answer_undisturbed l _ (takenSetSource_undisturbed s o))
  | setThreshold l target v => exact .next (answer_undisturbed l _ (takenSetThreshold_undisturbed s target v))
  | acknowledge l b => exact .next (answer_undisturbed l _ (takenAcknowledge_undisturbed s l b))
  | setVerdict l o => exact .next (answer_supervised l _ (takenSetVerdict_supervised o s))
  | clearBoard l => exact .next (answer_supervised l _ (takenClearBoard_supervised s))
  | setProbe l mode limit => exact .next (answer_undisturbed l _ (takenSetProbe_undisturbed s id mode limit))
  | probeLine l a => exact .next (answer_undisturbed l _ (takenProbeLine_undisturbed s id a))
  | setTime l sec tick => exact .next (answer_undisturbed l _ (takenSetTime_undisturbed s sec tick))

theorem step_supervised {s t : State} (h : step s = .next t) : Supervised s t := by
  unfold step at h
  split at h
  · cases h; exact .refl s
  · next c rest _ =>
    have htaken : Supervised s { s with pending := rest } := (Undisturbed.same (t := { s with pending := rest })).supervised
    exact htaken.trans (exec_supervised c _ t h)

/-- Settles O13: every row keeps the health record of each pair in agreement with its health. -/
theorem stepKeepsHealth : Obligations.StepKeepsHealth := fun _ _ hs h => (step_supervised h).health hs

/-- Settles O14: every row keeps the triggers in the set those that stand, and brings in no traffic while BRST_N is asserted. -/
theorem stepKeepsTriggersAndQuiet : Obligations.StepKeepsTriggersAndQuiet :=
  ⟨fun _ _ hs h => (step_supervised h).triggers hs, fun _ _ hs h => (step_supervised h).pulse hs,
    fun _ _ hs h => (step_supervised h).quiet hs⟩

end Sys2Proof.Machine
end

/-! ## Pulses and their supervision -/
section

namespace Sys2Proof.Machine

/-! ### A PULSE record (R105, R106) -/

section
variable {s : State} {n : StreamIx}

/-- A PULSE record taken from the head of the queue. -/
theorem exec_corTakeRecord_pulse {r : Record} {rest : List Record} (hq : s.commitQueue = r :: rest) (hn : r.stream = n)
    (hk : r.kind = .pulse) (hrole : (s.stream n).desc.role = .pulse) (hset : prbSettled s) :
    exec .corTakeRecord s = .next (pulseRecord n r.commitTime { s with commitQueue := rest }) := by
  subst hn
  have hhandled : handleRecord r { s with commitQueue := rest }
      = pulseRecord r.stream r.commitTime { s with commitQueue := rest } := by
    have hrole' : ({ s with commitQueue := rest }.stream r.stream).desc.role = .pulse := hrole
    simp only [handleRecord, hrole', hk]
  simp only [exec, execCorTakeRecord, hq, hhandled]
  rw [prbTake_kept hset]
  · rw [pulseRecord_eq]; split <;> rfl
  · rw [pulseRecord_eq]; split <;> rfl

/-- A PULSE record changes its stream, the stream's source and the stream's place in the set. -/
theorem pulseRecord_frame (commit : Clock) (s : State) : pulseRecord n commit s
    = { s with streams := (pulseRecord n commit s).streams, iar := (pulseRecord n commit s).iar
               vrd := { s.vrd with triggers := (pulseRecord n commit s).vrd.triggers } } := by
  rw [pulseRecord_eq]; split <;> rfl

theorem pulseRecord_triggers (commit : Clock) (s : State) :
    (pulseRecord n commit s).vrd.triggers = s.vrd.triggers.remove (.stream n) := by
  rw [pulseRecord_eq]; split <;> rfl

theorem pulseRecord_others (commit : Clock) (s : State) : OtherStreams n s (pulseRecord n commit s) := fun m hm => by
  rw [pulseRecord_eq]
  refine (modStream_other _ hm _).trans ?_
  split <;> rfl

theorem pulseRecord_same (commit : Clock) (s : State) :
    (pulseRecord n commit s).stream n = (s.stream n).pulsed commit := by
  rw [pulseRecord_eq]
  refine (modStream_same _ n _).trans ?_
  split <;> rfl

theorem pulseRecord_posted (commit : Clock) (s : State) :
    if (s.stream n).pulseEarly commit then Posted (streamSource n) .pulseEarly s (pulseRecord n commit s)
    else (pulseRecord n commit s).iar = s.iar := by
  rw [pulseRecord_eq]
  split
  · exact post_posted _ _ _
  · rfl

/-! ### A missed interval (R106) -/

theorem missCounted_frame (s : State) :
    missCounted n s = { s with streams := (missCounted n s).streams, iar := (missCounted n s).iar } := rfl

theorem missCounted_others (s : State) : OtherStreams n s (missCounted n s) := fun _ hm => modStream_other _ hm _

theorem missCounted_posted (s : State) : Posted (streamSource n) .pulseMissed s (missCounted n s) := post_posted _ _ _

theorem missCounted_same (s : State) : (missCounted n s).stream n = (s.stream n).missed s.clock := modStream_same _ n _

/-- The miss that makes 15 of them leaves no last pulse (R106). -/
theorem missed_eq {x : Stream} (now : Clock) (h : x.pulse.missCount ≤ 15) : x.missed now
    = { x with pulse := { x.pulse with
        missed := satInc x.pulse.missed, missCount := min (x.pulse.missCount + 1) 15, timer := .running now
        last := if x.pulse.missCount = 14 then none else x.pulse.last } } := by
  have hlast : (min (x.pulse.missCount + 1) 15 = 15 ∧ x.pulse.missCount ≠ 15) ↔ x.pulse.missCount = 14 := by omega
  simp only [Stream.missed, hlast]

/-- A miss reaches the limit where it raises the count to it (R106). -/
theorem miss_reaches_iff {count limit : Nat} (h : count ≤ 15) :
    count < limit ∧ limit ≤ min (count + 1) 15 ↔ limit = count + 1 ∧ count < 15 := by omega

theorem exec_pulseMissed {c : Clock} (ht : (s.stream n).pulse.timer = .running c)
    (hdue : (s.stream n).desc.maxInterval ≤ (s.clock - c).toNat) : exec (.pulseMissed n) s = .next (missPulse n s) := by
  have h : pulseDue s n = true := by
    simp only [pulseDue, ht]
    exact decide_eq_true hdue
  simp only [exec, execPulseMissed, h, if_true]

theorem missPulse_joins (h : (s.stream n).pulse.missCount ≤ 15) :
    if (s.stream n).desc.fence = true ∧ (s.stream n).desc.missLimit = (s.stream n).pulse.missCount + 1
        ∧ (s.stream n).pulse.missCount < 15 then
      TriggerJoins (.stream n) (missCounted n s) (missPulse n s)
    else missPulse n s = missCounted n s := by
  rw [missPulse_eq]
  simp only [miss_reaches_iff h]
  split
  · exact joinTrigger_joins _ _
  · rfl

end

/-- Settles O41: a PULSE record and a missed interval each change their stream; the miss that reaches the limit hands the
trigger on. -/
theorem pulseSupervision : Obligations.PulseSupervision := by
  intro n r rest s
  refine ⟨fun hq hn hk hrole hset => ?_, fun c hcount ht hdue => ?_⟩
  · have hremoved (m : Trigger) : (pulseRecord n r.commitTime { s with commitQueue := rest }).vrd.triggers.has m
        = (s.vrd.triggers.has m && !decide (m = .stream n)) := by
      rw [pulseRecord_triggers]
      exact TriggerSet.has_remove _ _ _
    refine ⟨_, exec_corTakeRecord_pulse hq hn hk hrole hset, pulseRecord_frame _ _, pulseRecord_others _ _, ?_, fun m hm => ?_,
      pulseRecord_posted (n := n) r.commitTime { s with commitQueue := rest },
      pulseRecord_same (n := n) r.commitTime { s with commitQueue := rest }⟩
    · rw [hremoved]; simp
    · rw [hremoved, decide_eq_false hm]; exact Bool.and_true _
  · refine ⟨missCounted n s, missPulse n s, exec_pulseMissed ht hdue, missCounted_frame s, missCounted_others s,
      missCounted_posted s, ?_, missPulse_joins hcount⟩
    rw [missCounted_same, missed_eq _ hcount]

end Sys2Proof.Machine
end

/-! ## The end of a window -/
section

namespace Sys2Proof.Machine

/-! ### What the judgement of a class leaves of the classes (R91, R101) -/

/-- Of the HEV's record of a pair: that it has a window, its last class and the counters of the classes. -/
def Pair.classes (q : Pair) :=
  (q.hev.window.isSome, q.hev.lastClass, q.hev.counters.good, q.hev.counters.bad, q.hev.counters.idle)

/-- No pair has ended or begun to have windows, and no window's class was recorded or counted. -/
def ClassesKept (s t : State) : Prop := ∀ r, (t.pair r).classes = (s.pair r).classes

namespace ClassesKept

variable {s t u : State}

theorem refl (s : State) : ClassesKept s s := fun _ => rfl

theorem trans (h : ClassesKept s t) (k : ClassesKept t u) : ClassesKept s u := fun r => (k r).trans (h r)

/-- The operation done last first, as a meaning writes it. -/
theorem comp (k : ClassesKept t u) (h : ClassesKept s t) : ClassesKept s u := h.trans k

theorem ite {c : Prop} [Decidable c] (h : ClassesKept s t) (k : ClassesKept s u) : ClassesKept s (if c then t else u) := by
  split
  · exact h
  · exact k

theorem modPair {p : PairIx} {f : Pair → Pair} (h : (f (s.pair p)).classes = (s.pair p).classes) :
    ClassesKept s (s.modPair p f) := fun r => by
  rw [modPair_place]
  split
  · next e => subst e; exact h
  · rfl

theorem of_undisturbed {still : Prop} (h : Undisturbed still s t) : ClassesKept s t := fun r => by
  have hsome : (t.pair r).hev.window.isSome = (s.pair r).hev.window.isSome := by
    rw [← Option.isSome_map (f := EvalWindow.held), (h.pair r).held, Option.isSome_map]
  rw [Pair.classes, Pair.classes, hsome, (h.pair r).hev]

end ClassesKept

section
variable (p : PairIx) (m : Trigger) (s : State)

theorem markFailed_classes : ClassesKept s (markFailed p s) :=
  .comp (u := markFailed p s) (fun _ => rfl) (.modPair (f := failedPair) rfl)

theorem joinInFault_classes : ClassesKept s (joinInFault m s) := .ite (.refl s) fun _ => rfl

theorem promoteStep_classes : ClassesKept s (promoteStep s p) :=
  .ite (.ite ((joinInFault_classes _ _).comp (markFailed_classes p s)) (markFailed_classes p s)) (.refl s)

theorem promoteInFault_classes : ClassesKept s (promoteInFault s) :=
  foldl_keeps (P := ClassesKept s) (fun t r h => h.trans (promoteStep_classes r t)) allPairs (.refl s)

theorem joinTrigger_classes : ClassesKept s (joinTrigger m s) := by
  have hentered : ClassesKept s (faultEntered m s) := fun _ => rfl
  refine .ite (.refl s) (.ite (joinInFault_classes m s) ?_)
  cases hv : s.vrd.verdict with
  | normal => rw [enterFault_normal hv]; exact hentered
  | fault => rw [enterFault, hv]; exact hentered
  | holdoff h =>
    rw [enterFault_holdoff hv]
    exact (promoteInFault_classes _).comp (.comp (.of_undisturbed (setFactor_undisturbed (still := True) _ 1)) hentered)

theorem failPair_classes : ClassesKept s (failPair p s) :=
  .ite ((joinTrigger_classes _ _).comp (markFailed_classes p s)) (markFailed_classes p s)

theorem suspectSample_classes : ClassesKept s (suspectSample p s) := by
  have hconfirm : ClassesKept s (s.modPair p fun q => { q with hev := { q.hev with confirm := q.hev.confirm + 1 } }) :=
    .modPair rfl
  exact .ite (.ite (.refl s) (failPair_classes p s)) (.ite (.ite
    (.comp (fun _ => rfl) (.comp (.modPair (f := fun q => { q with hev := { q.hev with promotionPending := true } }) rfl) hconfirm))
    ((failPair_classes p _).comp hconfirm)) hconfirm)

theorem judgeHealth_classes : ClassesKept s (judgeHealth p s) := by
  unfold judgeHealth; dsimp only; split
  · exact .modPair rfl
  · exact .modPair rfl
  · exact .ite (suspectSample_classes p s) (.comp (fun _ => rfl) (.modPair (f := fun q => { q with
      health := .suspect
      hev := { q.hev with
        confirm := 0, promotionPending := false
        counters := { q.hev.counters with suspects := satInc q.hev.counters.suspects } } }) rfl))

theorem judgeWindow_classes (c : WindowClass) : ClassesKept s (judgeWindow p c s) :=
  .ite ((judgeHealth_classes p _).comp (.modPair rfl)) (.refl s)

end

/-! ### The window ends (R88, R91) -/

section
variable {s : State} {p : PairIx} {w : EvalWindow}

theorem modWindow_some {q : Pair} {v : EvalWindow} (h : q.hev.window.isSome = true) :
    q.modWindow (fun _ => v) = { q with hev := { q.hev with window := some v } } := by
  obtain ⟨u, hu⟩ := Option.isSome_iff_exists.mp h
  rw [Pair.modWindow, hu, Option.map_some]

theorem exec_windowEnd (hw : (s.pair p).hev.window = some w) (hheld : w.held = false)
    (hen : (s.pair p).health.enabled = true) (hdue : (s.pair p).desc.window ≤ (s.clock - w.start).toNat) :
    exec (.windowEnd p) s = .next (endWindow p s) := by
  have h : windowDue s p = true := by
    simp only [windowDue, hw, hen, hheld]
    exact decide_eq_true hdue
  simp only [exec, execWindowEnd, h, if_true]

/-- The pair whose window has ended keeps the class recorded and counted, and has the next window. -/
theorem endWindow_pair (hw : (s.pair p).hev.window = some w) {q : Pair}
    (hq : q = (s.pair p).recordClass (classify (s.pair p) w)) :
    ((endWindow p s).pair p).hev.lastClass = q.hev.lastClass
      ∧ ((endWindow p s).pair p).hev.window = some (freshWindow s)
      ∧ ((endWindow p s).pair p).hev.counters.good = q.hev.counters.good
      ∧ ((endWindow p s).pair p).hev.counters.bad = q.hev.counters.bad
      ∧ ((endWindow p s).pair p).hev.counters.idle = q.hev.counters.idle := by
  have hkept := judgeWindow_classes p (s.modPair p (Pair.recordClass (classify (s.pair p) w))) (classify (s.pair p) w) p
  rw [endWindow_some s p hw, modPair_same]
  rw [modPair_same, ← hq] at hkept
  generalize (judgeWindow p _ _).pair p = r at hkept ⊢
  obtain ⟨hsome, hclass, hgood, hbad, hidle⟩ : r.hev.window.isSome = q.hev.window.isSome
      ∧ r.hev.lastClass = q.hev.lastClass ∧ r.hev.counters.good = q.hev.counters.good
      ∧ r.hev.counters.bad = q.hev.counters.bad ∧ r.hev.counters.idle = q.hev.counters.idle := by
    simpa only [Pair.classes, Prod.mk.injEq] using hkept
  have hwindow : q.hev.window.isSome = true := by rw [hq, Pair.recordClass, hw]; rfl
  rw [modWindow_some (hsome.trans hwindow)]
  exact ⟨hclass, rfl, hgood, hbad, hidle⟩

/-- The class of a window whose pair takes no sample moves nothing (R92, R96). -/
theorem judgeWindow_unjudged {c : WindowClass} (h : c = .idle ∨ (s.pair p).health = .failed ∨ (s.pair p).health = .quiesced) :
    judgeWindow p c s = s := by
  refine if_neg fun ⟨hc, hhealth⟩ => ?_
  rcases h with h | h | h
  · exact hc h
  · rw [h] at hhealth; revert hhealth; decide
  · rw [h] at hhealth; revert hhealth; decide

end

/-- Settles O44: what the judgement of a class leaves of the classes, and that it is nothing where the pair takes no sample. -/
theorem windowEndClassifies : Obligations.WindowEndClassifies := by
  intro p w s hw hheld hen hdue class_ c counted next
  have hcounted : counted = c.countClass class_ := rfl
  obtain ⟨hclass, hwindow, hgood, hbad, hidle⟩ := endWindow_pair hw rfl
  refine ⟨endWindow p s, exec_windowEnd hw hheld hen hdue, hclass, hwindow, ?_, ?_, ?_, fun h => ?_⟩
  · rw [hcounted]; exact hgood
  · rw [hcounted]; exact hbad
  · rw [hcounted]; exact hidle
  · have hend : endWindow p s = s.modPair p fun q => (q.recordClass class_).modWindow fun _ => next := by
      rw [endWindow_some s p hw, judgeWindow_unjudged, modPair_modPair]
      · rfl
      · rw [modPair_same]; exact h
    rw [hend]
    refine ⟨rfl, fun r hr => modPair_other s hr _, ?_⟩
    rw [modPair_same, modWindow_some (by rw [Pair.recordClass, hw]; rfl), hcounted]
    rfl

end Sys2Proof.Machine
end

/-! ## The health that the end of a window moves -/
section

namespace Sys2Proof.Machine

/-! ### One pair and its source -/

/-- One pair has changed, and sources; nothing else. -/
def PairHere (p : PairIx) (s t : State) : Prop := PairsAndSources s t ∧ OtherPairs p s t

namespace PairHere

variable {p : PairIx} {s t u : State}

theorem refl (p : PairIx) (s : State) : PairHere p s s := ⟨.refl s, fun _ _ => rfl⟩

theorem trans (h : PairHere p s t) (k : PairHere p t u) : PairHere p s u :=
  ⟨h.1.trans k.1, fun r hr => (k.2 r hr).trans (h.2 r hr)⟩

theorem modPair (p : PairIx) (f : Pair → Pair) (s : State) : PairHere p s (s.modPair p f) :=
  ⟨.modPair s p f, fun _ hr => modPair_other s hr f⟩

theorem post (p : PairIx) (i : SourceIx) (c : Cause) (s : State) : PairHere p s (post i c s) :=
  ⟨.post s i c, fun _ _ => rfl⟩

theorem ite {c : Prop} [Decidable c] (h : c → PairHere p s t) (k : ¬ c → PairHere p s u) :
    PairHere p s (if c then t else u) := by
  split
  · next hc => exact h hc
  · next hc => exact k hc

theorem frame (h : PairHere p s t) : t = { s with pairs := t.pairs, iar := t.iar } := by
  obtain ⟨h, -⟩ := h
  unfold PairsAndSources at h
  rw [h]

end PairHere

/-! ### The sample of a window (R91, R92) -/

/-- The class of a window that gives a sample (R91). -/
def WindowClass.ofSample (bad : Bool) : WindowClass := if bad then .bad else .good

/-- A pair with the sample of a window recorded, counted and in its history (R91, R92). -/
def Pair.tookSample (bad : Bool) (q : Pair) : Pair :=
  { q with hev := { q.hev with
      lastClass := some (if bad then .bad else .good), history := pushHistory q.hev.history bad
      counters := if bad then { q.hev.counters with bad := satInc q.hev.counters.bad }
        else { q.hev.counters with good := satInc q.hev.counters.good } } }

theorem recordClass_tookSample (bad : Bool) (q : Pair) :
    { q.recordClass (.ofSample bad) with hev := { (q.recordClass (.ofSample bad)).hev with
        history := pushHistory q.hev.history (decide (WindowClass.ofSample bad = .bad)) } } = q.tookSample bad := by
  cases bad <;> rfl

section
variable {s : State} {p : PairIx} {w : EvalWindow}

theorem classify_sample {q : Pair} (hhealth : q.health ≠ .quiesced) (htaint : w.taint = false)
    (hevents : w.paired.toNat / 2 ^ q.desc.toleranceShift < w.adverse.toNat ∨ 0 < w.paired.toNat) : classify q w
      = .ofSample (decide (w.paired.toNat / 2 ^ q.desc.toleranceShift < w.adverse.toNat)) := by
  rw [classify, if_neg (by simp [hhealth, htaint]), WindowClass.ofSample]
  by_cases hbad : w.paired.toNat / 2 ^ q.desc.toleranceShift < w.adverse.toNat
  · simp [hbad]
  · rw [if_neg hbad, if_pos (hevents.resolve_left hbad)]
    simp [hbad]

theorem endWindow_sampled (hw : (s.pair p).hev.window = some w) (hhealth : (s.pair p).health.sampled) {bad : Bool}
    (hc : classify (s.pair p) w = .ofSample bad) : endWindow p s
      = (judgeHealth p (s.modPair p (Pair.tookSample bad))).modPair p (Pair.modWindow fun _ => freshWindow s) := by
  have hidle : WindowClass.ofSample bad ≠ .idle := by cases bad <;> decide
  have hrecorded : ((s.modPair p (Pair.recordClass (.ofSample bad))).pair p).health.sampled := by
    rw [modPair_same]; exact hhealth
  rw [endWindow_some s p hw, hc, judgeWindow, if_pos ⟨hidle, hrecorded⟩, modPair_modPair]
  exact congrArg (fun f => (judgeHealth p (s.modPair p f)).modPair p (Pair.modWindow fun _ => freshWindow s))
    (funext (recordClass_tookSample bad))

/-! ### The health of the samples (R93, R94, R95) -/

theorem judgeHealth_few (h : badSamples (s.pair p).hev.history < 2) : judgeHealth p s
    = s.modPair p (Pair.settledTo (if badSamples (s.pair p).hev.history = 0 then .healthy else .watch)) := by
  obtain e | e : badSamples (s.pair p).hev.history = 0 ∨ badSamples (s.pair p).hev.history = 1 := by omega
  · simp only [judgeHealth, e, if_true]
  · simp only [judgeHealth, e, one_ne_zero, if_false]

theorem judgeHealth_many (h : 2 ≤ badSamples (s.pair p).hev.history) : judgeHealth p s
    = if (s.pair p).health = .suspect then suspectSample p s else enterSuspect p s := by
  unfold judgeHealth; dsimp only; split
  · omega
  · omega
  · rfl

/-- The confirm counter of a pair that becomes FAILED does not matter (R94). -/
theorem failPair_confirm (n : Nat → Nat) :
    failPair p (s.modPair p fun q => { q with hev := { q.hev with confirm := n q.hev.confirm } }) = failPair p s := by
  rw [failPair, failPair, modPair_same, markFailed, markFailed, modPair_modPair]

/-- A SUSPECT pair's sample that makes it FAILED (R94, R95). -/
theorem suspectSample_fails
    (h : (s.pair p).hev.promotionPending = true ∨ (s.pair p).desc.confirmCount ≤ (s.pair p).hev.confirm + 1)
    (hd : promotionDeferred s = false) : suspectSample p s = failPair p s := by
  unfold suspectSample; dsimp only; split
  · rw [if_neg (by simp [hd])]
  · next hp => rw [if_pos (h.resolve_left hp), if_neg (by simp [hd]), failPair_confirm (· + 1)]

/-- A SUSPECT pair whose promotion is held pending already stays (R95). -/
theorem suspectSample_pending (hp : (s.pair p).hev.promotionPending = true) (hd : promotionDeferred s = true) :
    suspectSample p s = s := by
  rw [suspectSample, if_pos hp, if_pos hd]

theorem suspectSample_counts (hp : (s.pair p).hev.promotionPending = false)
    (hc : (s.pair p).hev.confirm + 1 < (s.pair p).desc.confirmCount) :
    suspectSample p s = s.modPair p fun q => { q with hev := { q.hev with confirm := q.hev.confirm + 1 } } := by
  rw [suspectSample, if_neg (by simp [hp]), if_neg (by omega)]

theorem suspectSample_held (hp : (s.pair p).hev.promotionPending = false)
    (hc : (s.pair p).desc.confirmCount ≤ (s.pair p).hev.confirm + 1) (hd : promotionDeferred s = true) :
    suspectSample p s = post (pairSource p) .suspectHeld (s.modPair p fun q =>
      { q with hev := { q.hev with confirm := q.hev.confirm + 1, promotionPending := true } }) := by
  rw [suspectSample, if_neg (by simp [hp]), if_pos hc, if_pos hd, holdPromotion, modPair_modPair]

theorem markFailed_here (p : PairIx) (s : State) : PairHere p s (markFailed p s) :=
  (PairHere.modPair p _ s).trans (.post p _ _ _)

/-- The sample of a pair whose fence trigger it does not make stand moves that pair alone (R93, R94). -/
theorem judgeHealth_here (h : 2 ≤ badSamples (s.pair p).hev.history → (s.pair p).health = .suspect →
    ((s.pair p).hev.promotionPending = true ∨ (s.pair p).desc.confirmCount ≤ (s.pair p).hev.confirm + 1) →
    promotionDeferred s = false → (s.pair p).desc.fence = false) : PairHere p s (judgeHealth p s) := by
  by_cases hbads : badSamples (s.pair p).hev.history < 2
  · rw [judgeHealth_few hbads]; exact .modPair p _ s
  rw [judgeHealth_many (by omega)]
  refine .ite (fun hsus => ?_) fun _ => (PairHere.modPair p _ s).trans (.post p _ _ _)
  by_cases hreach : (s.pair p).hev.promotionPending = true ∨ (s.pair p).desc.confirmCount ≤ (s.pair p).hev.confirm + 1
  · cases hd : promotionDeferred s with
    | false =>
      rw [suspectSample_fails hreach hd, failPair, if_neg (by simp [h (by omega) hsus hreach hd])]
      exact markFailed_here p s
    | true =>
      cases hp : (s.pair p).hev.promotionPending with
      | true => rw [suspectSample_pending hp hd]; exact .refl p s
      | false =>
        rw [suspectSample_held hp (hreach.resolve_left (by simp [hp])) hd]
        exact (PairHere.modPair p _ s).trans (.post p _ _ _)
  · obtain ⟨hp, hc⟩ := not_or.mp hreach
    rw [suspectSample_counts (Bool.eq_false_iff.mpr hp) (by omega)]
    exact .modPair p _ s

end

/-- The failure of a pair hands its trigger on if it has fence yes (R96). -/
theorem failPair_joins (p : PairIx) (s : State) : if (s.pair p).desc.fence = true then
    TriggerJoins (.pair p) (markFailed p s) (failPair p s) else failPair p s = markFailed p s := by
  unfold failPair
  split
  · exact joinTrigger_joins _ _
  · rfl

/-- The pair whose next window has started, what the judgement made of it. -/
theorem nextWindow_pair {v : State} {p : PairIx} {q : Pair} {next : EvalWindow} (hv : v.pair p = q)
    (h : q.hev.window.isSome = true) : (v.modPair p (Pair.modWindow fun _ => next)).pair p
      = { q with hev := { q.hev with window := some next } } := by
  rw [modPair_same, hv, modWindow_some h]

/-- Settles O45: the outcomes of a sample are the branches of its judgement, each an equation of its own; the next window starts
after it. -/
theorem windowEndMovesHealth : Obligations.WindowEndMovesHealth := by
  intro p w s hw hheld htaint hb hhealth hdue hevents bad joined history bads h counted ended fails
  have hat : (s.modPair p (Pair.tookSample bad)).pair p = (s.pair p).tookSample bad := modPair_same ..
  have hbads : badSamples ((s.modPair p (Pair.tookSample bad)).pair p).hev.history = bads := by
    rw [hat]
    exact List.countP_eq_length_filter.symm
  have hsome : ((s.pair p).tookSample bad).hev.window.isSome = true := by rw [Pair.tookSample, hw]; rfl
  have hend : endWindow p s = (judgeHealth p (s.modPair p (Pair.tookSample bad))).modPair p
      (Pair.modWindow fun _ => { held := false, start := s.clock, paired := 0, adverse := 0, taint := false }) := by
    rw [endWindow_sampled hw hhealth (classify_sample (Health.sampled.not_quiesced hhealth) htaint hevents), freshWindow, hb]
  have hsuspect (hmany : 2 ≤ bads) (hsus : (s.pair p).health = .suspect) : judgeHealth p (s.modPair p (Pair.tookSample bad))
      = suspectSample p (s.modPair p (Pair.tookSample bad)) := by
    rw [judgeHealth_many (hbads ▸ hmany), if_pos (by rw [hat]; exact hsus)]
  refine ⟨endWindow p s, exec_windowEnd hw hheld (Health.sampled.enabled hhealth) hdue, fun hquiet => ?_, fun hfew => ?_,
    fun hmany hsus => ?_, fun hmany hsus hp hc => ?_, fun hmany hsus hp hc hd => ?_, fun hmany hsus hp hd => ?_,
    fun ⟨hmany, hsus, hreach, hd⟩ => ?_⟩ <;> rw [hend]
  · have hjudged : PairHere p (s.modPair p (Pair.tookSample bad)) (judgeHealth p (s.modPair p (Pair.tookSample bad))) := by
      refine judgeHealth_here fun hmany hsus hreach hd => ?_
      rw [hbads] at hmany
      rw [hat] at hsus hreach ⊢
      exact Bool.eq_false_iff.mpr fun hf => hquiet ⟨⟨hmany, hsus, hreach, hd⟩, hf⟩
    have hhere := (PairHere.modPair p (Pair.tookSample bad) s).trans hjudged
    exact ⟨(hhere.trans (.modPair p _ _)).frame, (hhere.trans (.modPair p _ _)).2⟩
  · rw [judgeHealth_few (hbads ▸ hfew), hbads]
    exact ⟨rfl, nextWindow_pair ((modPair_same ..).trans (congrArg _ hat)) hsome⟩
  · rw [judgeHealth_many (hbads ▸ hmany), if_neg (by rw [hat]; exact hsus)]
    exact ⟨post_posted _ _ _, nextWindow_pair ((modPair_same ..).trans (congrArg _ hat)) hsome⟩
  · rw [hsuspect hmany hsus, suspectSample_counts (by rw [hat]; exact hp) (by rw [hat]; exact hc)]
    exact ⟨rfl, nextWindow_pair ((modPair_same ..).trans (congrArg _ hat)) hsome⟩
  · rw [hsuspect hmany hsus, suspectSample_held (s := s.modPair p (Pair.tookSample bad)) (by rw [hat]; exact hp)
      (by rw [hat]; exact hc) hd]
    exact ⟨post_posted _ _ _, nextWindow_pair ((modPair_same ..).trans (congrArg _ hat)) hsome⟩
  · rw [hsuspect hmany hsus, suspectSample_pending (s := s.modPair p (Pair.tookSample bad)) (by rw [hat]; exact hp) hd]
    exact ⟨rfl, nextWindow_pair hat hsome⟩
  · rw [hsuspect hmany hsus, suspectSample_fails (s := s.modPair p (Pair.tookSample bad)) (by rw [hat]; exact hreach) hd]
    have hjoins := failPair_joins p (s.modPair p (Pair.tookSample bad))
    rw [hat] at hjoins
    have hfailed : (markFailed p (s.modPair p (Pair.tookSample bad))).pair p
        = failedPair { s.pair p with hev := { ended with window := some w } } := by
      rw [markFailed_pair, hat, ← hw]
      rfl
    have hwindow : ((failPair p (s.modPair p (Pair.tookSample bad))).pair p).hev.window.isSome = true :=
      (congrArg Prod.fst (failPair_classes p (s.modPair p (Pair.tookSample bad)) p)).trans (by rw [hat]; exact hsome)
    exact ⟨_, _, hjoins, rfl, ((PairHere.modPair p _ s).trans (markFailed_here p _)).2, post_posted _ _ _, hfailed, rfl,
      fun r hr => modPair_other _ hr _, nextWindow_pair rfl hwindow⟩

end Sys2Proof.Machine
end

/-! ## The release of a hold-off, and the passing of its limit -/
section

namespace Sys2Proof.Machine

/-! ### The release (R136) -/

section
variable {s : State} {h : HoldOff}

theorem exec_holdoffRelease {c : Clock} (hv : s.vrd.verdict = .holdoff h) (hrun : h.highRunStart = some c)
    (hdue : s.vrd.settings.releaseSettle ≤ (s.clock - c).toNat) : exec .holdoffRelease s = .next (releaseHoldoff s) := by
  have hrelease : releaseDue s h = true := by
    simp only [releaseDue, HoldOff.highRun, hrun]
    exact decide_eq_true hdue
  simp only [exec, execHoldoffRelease, hv, hrelease, if_true]

theorem releaseHoldoff_frame (s : State) : releaseHoldoff s
    = { s with pairs := (releaseHoldoff s).pairs, iar := (releaseHoldoff s).iar
               vrd := { s.vrd with verdict := .normal, factor := 1 } } := by
  have hvrd : (releaseHoldoff s).vrd = { s.vrd with verdict := .normal, factor := 1 } := setFactor_vrd ..
  have honly : VerdictOnly s (releaseHoldoff s) := releaseHoldoff_only s
  generalize releaseHoldoff s = t at hvrd honly
  rw [← hvrd, honly]

theorem releaseHoldoff_pair (s : State) (p : PairIx) : ((releaseHoldoff s).pair p).desc = (s.pair p).desc
    ∧ ((releaseHoldoff s).pair p).est = (s.pair p).est
    ∧ ((releaseHoldoff s).pair p).timeout = timeoutOf (s.pair p).desc (s.pair p).est 1
    ∧ ((releaseHoldoff s).pair p).hev.promotionPending = (s.pair p).hev.promotionPending := by
  obtain ⟨hdesc, hest, htimeout, hpending, -⟩ := setFactor_pair 1 (s.modVrd fun v => { v with verdict := .normal }) p
  rw [releaseHoldoff]
  generalize setFactor 1 (s.modVrd fun v => { v with verdict := .normal }) = t at *
  exact ⟨hdesc, hest, htimeout, hpending⟩

/-! ### The passing of the limit (R137) -/

/-- The limit of the hold-off has passed, and no pending pair has been promoted yet (R137). -/
def limitPassed (h : HoldOff) (s : State) : State :=
  post boardSource .holdoffLimit (s.modVrd fun v =>
    { v with
      verdict := .holdoff { h with limitPassed := true }
      counters := { v.counters with limitPasses := satInc v.counters.limitPasses } })

/-- The promotion of a pair, if it is pending (R95). -/
def promotePair (s : State) (p : PairIx) : State := if (s.pair p).hev.promotionPending then failPair p s else s

theorem promotePending_foldl (s : State) : promotePending s = (promotionOrder s).foldl promotePair s := rfl

theorem exec_holdoffLimit (hv : s.vrd.verdict = .holdoff h) (hflag : h.limitPassed = false)
    (hlimit : s.vrd.settings.holdoffLimit ≠ 0) (hdue : s.vrd.settings.holdoffLimit ≤ (s.clock - h.entryTime).toNat) :
    exec .holdoffLimit s = .next ((promotionOrder (limitPassed h s)).foldl promotePair (limitPassed h s)) := by
  have hpasses : limitDue s h = true := by
    simp only [limitDue, hflag, decide_eq_true hlimit]
    exact decide_eq_true hdue
  simp only [exec, execHoldoffLimit, hv, hpasses, if_true]
  exact congrArg Host.Outcome.next (promotePending_foldl (limitPassed h s))

end

/-! ### A pair that is promoted before the others (R94, R95) -/

section
variable {s t : State} {a : PairIx} {m : Trigger}

theorem markFailed_source {j : SourceIx} (h : j ≠ pairSource a) : (markFailed a s).source j = s.source j :=
  (markFailed_at a s).sources j h

/-- A pair that has become FAILED is pending no more. -/
theorem markFailed_not_pending : ((markFailed a s).pair a).hev.promotionPending = false := by
  rw [markFailed_pair]; rfl

/-- What the T of a pair is computed from is not the failure's to write. -/
theorem markFailed_timing (p : PairIx) : ((markFailed a s).pair p).desc = (s.pair p).desc
    ∧ ((markFailed a s).pair p).est = (s.pair p).est ∧ ((markFailed a s).pair p).timeout = (s.pair p).timeout := by
  by_cases e : p = a
  · rw [e, markFailed_pair]; exact ⟨rfl, rfl, rfl⟩
  · rw [markFailed_other s a e]; exact ⟨rfl, rfl, rfl⟩

theorem markFailed_promotes (p : PairIx) :
    promotesTrigger (markFailed a s) p = (promotesTrigger s p && decide (p ≠ a)) := by
  by_cases e : p = a
  · simp [e, promotesTrigger, markFailed_not_pending]
  · rw [promotesTrigger, markFailed_other s a e, markFailed_vrd, promotesTrigger]
    simp [e]

/-- What is pending after the failure of a pair was pending before it. -/
theorem markFailed_pending {p : PairIx} (h : ((markFailed a s).pair p).hev.promotionPending = true) :
    p ≠ a ∧ (s.pair p).hev.promotionPending = true := by
  have hne : p ≠ a := by
    rintro rfl
    exact Bool.false_ne_true (markFailed_not_pending.symm.trans h)
  rw [markFailed_other s a hne] at h
  exact ⟨hne, h⟩

/-- One pending pair marked FAILED before the others were promoted was promoted with them. -/
theorem pendingFailed_of_marked (hp : (s.pair a).hev.promotionPending = true) (h : PendingFailed (markFailed a s) t) :
    PendingFailed s t := by
  intro p
  have hpair := h p
  by_cases e : p = a
  · subst e
    rw [if_neg (by simp [markFailed_not_pending])] at hpair
    obtain ⟨hpair, hsource⟩ := hpair
    rw [if_pos hp]
    exact ⟨hpair.trans (markFailed_pair p s), (markFailed_posted p s).congr rfl hsource rfl⟩
  · rw [markFailed_other s a e] at hpair
    have hsource : (markFailed a s).source (pairSource p) = s.source (pairSource p) :=
      markFailed_source fun k => e (pairSource_injective k)
    split at hpair
    · next hq =>
      obtain ⟨hpair, hposted⟩ := hpair
      rw [if_pos hq]
      exact ⟨hpair, hposted.congr hsource.symm rfl rfl⟩
    · next hq =>
      rw [if_neg hq, ← hsource]
      exact hpair

/-- One pending pair marked FAILED before FAULT was entered, without a trigger but the one that enters it, was promoted with
the others. -/
theorem faultFromHoldoff_of_marked (hp : (s.pair a).hev.promotionPending = true)
    (hm : m = .pair a ∨ promotesTrigger s a = false) (h : FaultFromHoldoff m (markFailed a s) t) :
    FaultFromHoldoff m s t := by
  obtain ⟨hframe, hbflt, hcalm, hposted, hhas, hcount, hpairs, hsources, hA, hB, hpending⟩ := h
  have hpromotes (p : PairIx) : (promotesTrigger (markFailed a s) p && decide (m ≠ .pair p))
      = (promotesTrigger s p && decide (m ≠ .pair p)) := by
    rw [markFailed_promotes]
    by_cases e : p = a
    · subst e
      rcases hm with hm | hm <;> simp [hm]
    · simp [e]
  refine ⟨hframe, hbflt, hcalm, hposted.congr (markFailed_source (boardSource_not_pair a)).symm rfl rfl, fun k => ?_, ?_,
    fun p => ?_, fun j hj hpair => (hsources j hj hpair).trans (markFailed_source (hpair a)), hA, hB, fun hsame => ?_⟩
  · rw [hhas k, markFailed_vrd]
    by_cases hkm : k = m
    · simp [hkm]
    · refine or_congr_right (or_congr_right (exists_congr fun p => and_congr_right fun hk => ?_))
      have hne : m ≠ .pair p := fun e => hkm (hk.trans e.symm)
      rw [← Bool.and_true (promotesTrigger _ p), ← Bool.and_true (promotesTrigger s p), ← decide_eq_true hne, hpromotes]
  · rw [hcount, markFailed_vrd]
    simp only [hpromotes]
  · obtain ⟨kdesc, kest, -⟩ := markFailed_timing (a := a) (s := s) p
    obtain ⟨hdesc, hest, htimeout, hnone, hfailed, hstays⟩ := hpairs p
    rw [kdesc, kest] at htimeout
    refine ⟨hdesc.trans kdesc, hest.trans kest, htimeout, hnone, ?_⟩
    by_cases e : p = a
    · subst e
      have hhealth := hstays markFailed_not_pending
      rw [markFailed_pair] at hhealth
      exact ⟨fun _ => hhealth nofun, fun k => absurd (hp.symm.trans k) nofun⟩
    · rw [markFailed_other s a e] at hfailed hstays
      exact ⟨hfailed, hstays⟩
  · refine pendingFailed_of_marked hp (hpending fun p => ?_)
    obtain ⟨kdesc, kest, ktimeout⟩ := markFailed_timing (a := a) (s := s) p
    rw [kdesc, kest, ktimeout]
    exact hsame p

end

/-! ### The pending pairs promoted in their order (R95, R137) -/

/-- Every pending pair has become FAILED, and beside the pairs and their sources nothing has changed (R95, R137). -/
def PendingPromoted (s t : State) : Prop :=
  t = { s with iar := t.iar, pairs := t.pairs } ∧ PendingFailed s t
    ∧ (∀ j : SourceIx, (∀ p : PairIx, j ≠ pairSource p) → t.source j = s.source j)
    ∧ t.iar.thresholdA = s.iar.thresholdA ∧ t.iar.thresholdB = s.iar.thresholdB

section
variable {s : State}

theorem promotePair_idle {p : PairIx} (h : (s.pair p).hev.promotionPending ≠ true) : promotePair s p = s := if_neg h

/-- The promotion of a pair with no trigger to bring about. -/
theorem promotePair_quiet {p : PairIx} (h : (s.pair p).hev.promotionPending = true) (hq : promotesTrigger s p = false) :
    promotePair s p = markFailed p s := by
  rw [promotePair, if_pos h, failPair]
  split
  · next hf =>
    refine joinTrigger_known ?_
    rw [promotesTrigger, h, hf] at hq
    rw [markFailed_vrd]
    simpa using hq
  · rfl

/-- The promotion of a pair whose trigger moves a hold-off to FAULT (R133). -/
theorem promotePair_fault {h : HoldOff} (hv : s.vrd.verdict = .holdoff h) {p : PairIx} (hp : promotesTrigger s p = true) :
    promotePair s p = faultReached (.pair p) (markFailed p s) := by
  simp only [promotesTrigger, Bool.and_eq_true, Bool.not_eq_true'] at hp
  obtain ⟨⟨hpending, hfence⟩, hnew⟩ := hp
  rw [promotePair, if_pos hpending, failPair, if_pos hfence]
  exact joinTrigger_holdoff (by rw [markFailed_vrd]; exact hnew) (by rw [markFailed_vrd]; exact hv)

/-- With no pair pending there is nothing to promote. -/
theorem promotePairs_none (h : ∀ p, (s.pair p).hev.promotionPending = false) (l : List PairIx) : l.foldl promotePair s = s := by
  induction l with
  | nil => rfl
  | cons a l ih => rw [List.foldl_cons, promotePair_idle (by simp [h]), ih]

theorem PendingPromoted.refl (h : ∀ p, (s.pair p).hev.promotionPending = false) : PendingPromoted s s :=
  ⟨rfl, fun p => by rw [if_neg (by simp [h])]; exact ⟨rfl, rfl⟩, fun _ _ => rfl, rfl, rfl⟩

theorem PendingPromoted.of_marked {t : State} {a : PairIx} (hp : (s.pair a).hev.promotionPending = true)
    (h : PendingPromoted (markFailed a s) t) : PendingPromoted s t := by
  obtain ⟨hframe, hfailed, hsources, hA, hB⟩ := h
  exact ⟨hframe, pendingFailed_of_marked hp hfailed,
    fun j hj => (hsources j hj).trans (markFailed_source (hj a)), hA, hB⟩

/-- The pairs that are pending once one pair was promoted quietly are in the rest of the list. -/
theorem pending_rest {a : PairIx} {l : List PairIx} (hl : ∀ p, (s.pair p).hev.promotionPending = true → p ∈ a :: l)
    (p : PairIx) (hp : ((markFailed a s).pair p).hev.promotionPending = true) : p ∈ l := by
  obtain ⟨hne, hp⟩ := markFailed_pending hp
  exact (List.mem_cons.mp (hl p hp)).resolve_left hne

theorem pending_rest_idle {a : PairIx} {l : List PairIx} (hl : ∀ p, (s.pair p).hev.promotionPending = true → p ∈ a :: l)
    (ha : (s.pair a).hev.promotionPending ≠ true) (p : PairIx) (hp : (s.pair p).hev.promotionPending = true) : p ∈ l :=
  (List.mem_cons.mp (hl p hp)).resolve_left fun e => ha (e ▸ hp)

/-- Promotions that bring about no trigger move the pending pairs alone. -/
theorem promotePairs_quiet {l : List PairIx} (hl : ∀ p, (s.pair p).hev.promotionPending = true → p ∈ l)
    (hquiet : ∀ p, promotesTrigger s p = false) : PendingPromoted s (l.foldl promotePair s) := by
  induction l generalizing s with
  | nil => exact .refl fun p => Bool.eq_false_iff.mpr fun hp => nomatch hl p hp
  | cons a l ih =>
    rw [List.foldl_cons]
    by_cases ha : (s.pair a).hev.promotionPending = true
    · rw [promotePair_quiet ha (hquiet a)]
      exact .of_marked ha (ih (pending_rest hl) fun p => by rw [markFailed_promotes, hquiet p]; rfl)
    · rw [promotePair_idle ha]
      exact ih (pending_rest_idle hl ha) hquiet

/-- The first promotion that brings about a trigger moves the hold-off to FAULT, and all pending pairs with it (R95, R133). -/
theorem promotePairs_fault {h : HoldOff} (hv : s.vrd.verdict = .holdoff h) {l : List PairIx}
    (hl : ∀ p, (s.pair p).hev.promotionPending = true → p ∈ l) (hsome : ∃ p, promotesTrigger s p = true) :
    ∃ p, promotesTrigger s p = true ∧ FaultFromHoldoff (.pair p) s (l.foldl promotePair s) := by
  induction l generalizing s with
  | nil =>
    obtain ⟨p, hp⟩ := hsome
    simp only [promotesTrigger, Bool.and_eq_true] at hp
    exact nomatch hl p hp.1.1
  | cons a l ih =>
    rw [List.foldl_cons]
    by_cases ha : (s.pair a).hev.promotionPending = true
    · cases hq : promotesTrigger s a with
      | true =>
        refine ⟨a, hq, ?_⟩
        have hreached := faultReached_faultFromHoldoff (.pair a) (markFailed a s)
        rw [promotePair_fault hv hq, promotePairs_none]
        · exact faultFromHoldoff_of_marked ha (.inl rfl) hreached
        · intro p
          obtain ⟨-, -, -, hnone, -⟩ := faultReached_pair (.pair a) (markFailed a s) p
          exact hnone
      | false =>
        rw [promotePair_quiet ha hq]
        obtain ⟨p, hp⟩ := hsome
        have hne : p ≠ a := by
          rintro rfl
          exact Bool.false_ne_true (hq.symm.trans hp)
        obtain ⟨r, hr, hfault⟩ := ih (s := markFailed a s) (by rw [markFailed_vrd]; exact hv) (pending_rest hl)
          ⟨p, by rw [markFailed_promotes, hp, decide_eq_true hne]; rfl⟩
        rw [markFailed_promotes, Bool.and_eq_true] at hr
        exact ⟨r, hr.1, faultFromHoldoff_of_marked ha (.inr hq) hfault⟩
    · rw [promotePair_idle ha]
      exact ih hv (pending_rest_idle hl ha) hsome

end

/-- Settles O50: the release recomputes every T; the passing promotes the pending pairs in turn, and the first whose trigger is new
moves the verdict. -/
theorem holdoffEndsAndPasses : Obligations.HoldoffEndsAndPasses := by
  intro h s hv
  refine ⟨fun c hrun hdue => ⟨releaseHoldoff s, exec_holdoffRelease hv hrun hdue, releaseHoldoff_frame s,
    setFactor_source 1 _ boardSource_not_pair, releaseHoldoff_pair s⟩, fun hflag hlimit hdue => ?_⟩
  have hl (p : PairIx) (hp : ((limitPassed h s).pair p).hev.promotionPending = true) : p ∈ promotionOrder (limitPassed h s) :=
    (mem_promotionOrder _ p).mpr hp
  exact ⟨limitPassed h s, _, exec_holdoffLimit hv hflag hlimit hdue, post_posted _ _ _, rfl,
    promotePairs_quiet hl, promotePairs_fault (s := limitPassed h s) rfl hl⟩

end Sys2Proof.Machine
end

/-! ## An overdue echo entry -/
section

namespace Sys2Proof.Machine

/-! ### The finding against an overdue entry (R113, R115, R116) -/

def EchoCounters.addUnread (c : EchoCounters) : EchoCounters := { c with unread := satInc c.unread }

/-- The state with the overdue entry `e`, between `before` and `after`, counted unread: gone in OFF, QUEUED in FETCH_CHECK. The
finding goes against its pair beside. -/
def unreadJudged (before : List EchoEntry) (e : EchoEntry) (after : List EchoEntry) (s : State) : State :=
  { s with echo := { s.echo with
      entries := if s.echo.fetchCheck then before ++ { e with status := .queued } :: after else before ++ after
      probeQueue := if s.echo.fetchCheck then s.echo.probeQueue ++ [e.key] else s.echo.probeQueue
      counters := s.echo.counters.addUnread } }

section
variable {s : State} {e : EchoEntry} {before after : List EchoEntry}

theorem overdue_iff {f : EchoEntry} : f.overdue s = true ↔
    f.status = .watching ∧ (s.pair f.pair).desc.echoDeadline ≤ (s.clock - f.commitTime).toNat := by
  simp only [EchoEntry.overdue, Bool.and_eq_true, decide_eq_true_eq]
  rfl

theorem judgeOverdue_eq (hs : s.echo.entries = before ++ e :: after) (he : e.status = .watching) (hb : e ∉ before) :
    judgeOverdue e s = echoFinding e.pair .unread (unreadJudged before e after s) := by
  have hfirst : ∀ f ∈ before, decide (f = e) = false := fun f hf => decide_eq_false fun k => hb (k ▸ hf)
  refine congrArg (echoFinding e.pair .unread) ?_
  cases hfetch : s.echo.fetchCheck with
  | true =>
    simp only [if_true, modEntry, countEcho, State.modEcho, unreadJudged, hfetch]
    rw [hs, modFirst_first _ after hfirst (decide_eq_true rfl)]
    rfl
  | false =>
    simp only [Bool.false_eq_true, if_false, retireEntry_watching he, countEcho, State.modEcho, unreadJudged, hfetch]
    rw [hs, List.erase_append_right _ hb, List.erase_cons_head]
    rfl

/-- ECHO_OVERDUE judges the first overdue entry, and the PRB then takes a line if it has one to take (R115, R119). -/
theorem exec_echoOverdue (hs : s.echo.entries = before ++ e :: after) (he : e.overdue s = true)
    (hb : ∀ f ∈ before, f.overdue s = false) :
    exec .echoOverdue s = .next (prbTake (echoFinding e.pair .unread (unreadJudged before e after s))) := by
  have hfind : s.echo.entries.find? (EchoEntry.overdue s) = some e := hs ▸ find?_first after hb he
  have hnot : e ∉ before := fun hm => Bool.false_ne_true ((hb e hm).symm.trans he)
  rw [← judgeOverdue_eq hs (overdue_iff.mp he).1 hnot]
  simp only [exec, execEchoOverdue, hfind]

/-- A settled PRB takes nothing once the entry is judged, unless an IDLE one finds it in the queue. -/
theorem unreadJudged_settled (hs : s.echo.entries = before ++ e :: after) (hset : prbSettled s)
    (hbusy : s.echo.fetchCheck = true → s.echo.prb ≠ .idle ∨ s.tap.brstAsserted = true) :
    prbSettled (unreadJudged before e after s) := by
  cases hfetch : s.echo.fetchCheck with
  | true => exact (hbusy hfetch).imp_right .inl
  | false =>
    refine prbSettled_sublist hset rfl rfl rfl (by simp [unreadJudged, hfetch]) fun f hf => ?_
    have hrest : (unreadJudged before e after s).echo.entries = before ++ after := by simp [unreadJudged, hfetch]
    rw [hrest] at hf
    exact hs ▸ (List.sublist_cons_self e after).append_left before |>.mem hf

end

/-! ### The head of the probe queue becomes the current entry (R119) -/

/-- The state with the QUEUED entry `e`, whose key heads the queue, made the current entry. -/
def queueHeadTaken (before : List EchoEntry) (e : EchoEntry) (after : List EchoEntry) (rest : List SlotKey) (s : State) :
    State :=
  { s with echo := { s.echo with entries := before ++ { e with status := .probing } :: after, probeQueue := rest } }

section
variable {s : State} {e : EchoEntry} {before after : List EchoEntry} {rest : List SlotKey}

theorem takeQueueHead_first (hs : s.echo.entries = before ++ e :: after) (hq : s.echo.probeQueue = e.key :: rest)
    (he : e.status = .queued) (hb : Apart e before) : takeQueueHead s = queueHeadTaken before e after rest s := by
  have hfirst : ∀ f ∈ before, decide (f.key = e.key ∧ f.status = .queued) = false := fun f hf =>
    decide_eq_false fun ⟨hkey, hqueued⟩ => (hb f hf).elim (· hkey) (· (hqueued.trans he.symm))
  simp only [takeQueueHead, hq, State.modEcho]
  rw [hs, modFirst_first _ after hfirst (decide_eq_true ⟨rfl, he⟩)]
  rfl

/-- A PRB that is free, with no current entry, takes the next missing line of the queue's head (R119, step 3). -/
theorem prbTake_queueHead {i : Nat} (hprb : s.echo.prb = .idle) (hbrst : s.tap.brstAsserted = false)
    (hsingle : s.echo.single.isBusy = false) (hs : s.echo.entries = before ++ e :: after)
    (hq : s.echo.probeQueue = e.key :: rest) (he : e.status = .queued) (hb : Apart e before)
    (hnone : ∀ f ∈ before ++ after, f.status ≠ .probing) (hi : e.nextLine = some i) :
    prbTake s = lineTaken (entryLine s e i) (queueHeadTaken before e after rest s) := by
  have hfree : ¬ (s.echo.prb ≠ .idle ∨ s.tap.brstAsserted = true) := by simp [hprb, hbrst]
  have hcurrent : currentEntry s = none := currentEntry_none.mpr fun f hf => by
    rw [hs, List.mem_append, List.mem_cons] at hf
    rcases hf with hf | rfl | hf
    · exact hnone f (List.mem_append_left _ hf)
    · rw [he]; decide
    · exact hnone f (List.mem_append_right _ hf)
  have hnow : currentEntry (queueHeadTaken before e after rest s) = some { e with status := .probing } :=
    currentEntry_first rfl rfl fun f hf => hnone f (List.mem_append_left _ hf)
  have hnext : ({ e with status := .probing } : EchoEntry).nextLine = some i := hi
  rw [prbTake, if_neg hfree]
  split
  · next a ha => simp [ha, SingleProbe.isBusy] at hsingle
  · rw [hcurrent, if_neg (by simp), takeQueueHead_first hs hq he hb]
    simp only [takeEntryLine, hnow, hnext, takeLine_eq]
    rfl

end

/-- The written line of lowest index that has not been read is the one that the entry needs next (R119). -/
theorem nextLine_lowest {e : EchoEntry} {i : Nat} (hi : i < 8) (hw : e.written.getLsbD i = true)
    (hr : e.readMask.getLsbD i = false)
    (hj : ∀ j, j < i → e.written.getLsbD j = true → e.readMask.getLsbD j = true) : e.nextLine = some i := by
  refine nextLine_some hi (by rw [EchoEntry.missing, hw, hr]; rfl) fun j hji => ?_
  cases hwj : e.written.getLsbD j with
  | false => rw [EchoEntry.missing, hwj]; rfl
  | true => rw [EchoEntry.missing, hwj, hj j hji hwj]; rfl

/-- Settles O46: the first overdue entry is judged, and where it heads an empty queue an IDLE PRB takes its first missing line. -/
theorem echoOverdueIsJudged : Obligations.EchoOverdueIsJudged := by
  refine ⟨fun before after e s hs he hdue hbefore hbusy hset => ?_,
    fun e s hs he hq hfetch hdue hprb hsingle hbrst hphase hpgnt i hi hw hr hj => ?_⟩
  · have hb : ∀ f ∈ before, f.overdue s = false := fun f hf => Bool.eq_false_iff.mpr fun k => by
      obtain ⟨hwatching, hlate⟩ := overdue_iff.mp k
      exact Nat.not_le.mpr (hbefore f hf hwatching) hlate
    have hexec := exec_echoOverdue hs (overdue_iff.mpr ⟨he, hdue⟩) hb
    rw [prbTake_kept (unreadJudged_settled hs hset hbusy) (echoFinding_echo ..) (by rw [echoFinding_tap])] at hexec
    exact ⟨_, hexec, echoFinding_frame _ _ _, echoFinding_found e.pair .unread (unreadJudged before e after s)⟩
  · have hexec := exec_echoOverdue (before := []) (after := []) hs (overdue_iff.mpr ⟨he, hdue⟩) fun f hf => nomatch hf
    have hnext : ({ e with status := .queued } : EchoEntry).nextLine = some i := nextLine_lowest hi hw hr hj
    rw [prbTake_queueHead (before := []) (after := []) (rest := []) (e := { e with status := .queued }) (i := i)
      (by rw [echoFinding_echo]; exact hprb) (by rw [echoFinding_tap]; exact hbrst)
      (by rw [echoFinding_echo]; exact hsingle) (by simp [unreadJudged, hfetch])
      (by simp [unreadJudged, hfetch, hq, EchoEntry.key]) rfl (fun f hf => nomatch hf) (fun f hf => nomatch hf) hnext,
      echoFinding_frame] at hexec
    refine ⟨_, hexec, rfl, rfl, rfl, ?_, ?_, rfl, rfl, rfl⟩
    · simp [lineTaken, queueHeadTaken, unreadJudged, entryLine, hphase, hpgnt]
    · simp [preq, lineTaken, queueHeadTaken, unreadJudged, hphase, hpgnt]

end Sys2Proof.Machine
end

/-! ## A line that waits too long for its grant -/
section

namespace Sys2Proof.Machine

/-! ### The line in hand is given up, and starves (R120, R122) -/

/-- The PRB and the port once a line that waits for its grant is withdrawn or dropped. -/
def lineDropped (s : State) : State :=
  { s with tap := { s.tap with port := s.tap.port.withdraw }, echo := { s.echo with prb := .idle } }

section
variable {s : State} {l : LineInHand}

theorem waitDue_iff : waitDue s = true ↔
    ∃ l, s.echo.prb = .requesting l ∧ s.echo.waitLimit ≤ (s.clock - l.takenAt).toNat := by
  unfold waitDue
  cases s.echo.prb with
  | idle | reading k => simp
  | requesting k =>
    simp only [decide_eq_true_eq, PrbState.requesting.injEq, exists_eq_left']
    rfl

theorem starveInHand_requesting (hprb : s.echo.prb = .requesting l) : starveInHand s = starveLine l (lineDropped s) := by
  have hdrop : giveUpLine s = lineDropped s := by simp only [giveUpLine, hprb]; rfl
  simp only [starveInHand, hprb, hdrop]

theorem exec_grantWaitExpiry (hprb : s.echo.prb = .requesting l)
    (hdue : s.echo.waitLimit ≤ (s.clock - l.takenAt).toNat) :
    exec .grantWaitExpiry s = .next (prbTake (starveLine l (lineDropped s))) := by
  simp only [exec, execGrantWaitExpiry, waitDue_iff.mpr ⟨l, hprb, hdue⟩, if_true, starveInHand_requesting hprb]

/-- The single probe's line starves, and the PRB has nothing else to take (R120, R124). -/
theorem prbTake_starved_single {b : LineAddr} (hp : l.purpose = .singleProbe) (hsingle : s.echo.single = .busy b)
    (hcur : currentEntry s = none) (hq : s.echo.probeQueue = []) :
    prbTake (starveLine l (lineDropped s)) = { lineDropped s with echo := { s.echo with
      prb := .idle, single := .done b .starved } } := by
  rw [starveLine_single (s := lineDropped s) hp hsingle, prbTake_without_work rfl]
  · rfl
  · exact hcur
  · exact hq

/-- The current entry's line starves, and the PRB has nothing else to take (R113, R120). -/
theorem prbTake_starved_entry {e : EchoEntry} {before after : List EchoEntry} (hp : l.purpose = .currentEntry)
    (hsingle : s.echo.single.isBusy = false) (hs : s.echo.entries = before ++ e :: after) (he : e.status = .probing)
    (hb : ∀ f ∈ before ++ after, f.status ≠ .probing) (hq : s.echo.probeQueue = []) :
    prbTake (starveLine l (lineDropped s)) = echoFinding e.pair .starved { lineDropped s with echo := { s.echo with
      prb := .idle, entries := before ++ after, counters := s.echo.counters.addStarved } } := by
  rw [starveLine_entry (s := lineDropped s) hp rfl hs he fun f hf => hb f (List.mem_append_left _ hf),
    prbTake_without_work]
  · rfl
  · rw [echoFinding_echo]; exact hsingle
  · exact rest_not_probing hb (by rw [echoFinding_echo])
  · rw [echoFinding_echo]; exact hq

end

/-- Settles O48: the line is dropped, and its single probe or its entry starves. -/
theorem grantWaitStarves : Obligations.GrantWaitStarves := by
  intro l s hprb hdue hq port
  rw [exec_grantWaitExpiry hprb hdue]
  refine ⟨fun hp ⟨b, hsingle⟩ hcur => ⟨b, hsingle, ?_⟩, fun before e after hp hsingle hs he hwatch => ?_⟩
  · rw [prbTake_starved_single hp hsingle hcur hq]
    rfl
  · have hnot : ∀ f ∈ before ++ after, f.status ≠ .probing := fun f hf => by rw [hwatch f hf]; decide
    rw [prbTake_starved_entry hp hsingle hs he hnot hq]
    exact ⟨_, rfl, echoFinding_frame _ _ _, echoFinding_found _ _ _⟩

end Sys2Proof.Machine
end

/-! ## The probes are commanded -/
section

namespace Sys2Proof.Machine

/-! ### SET_PROBE (R117) -/

/-- The probe mode and the grant wait limit written. -/
def probeSet (fetch : Bool) (limit : Nat) (s : State) : State :=
  { s with echo := { s.echo with fetchCheck := fetch, waitLimit := limit } }

section
variable {s : State} {fetch : Bool} {limit : Nat}

theorem takenSetProbe_taken {mode : Byte} {wait : BitVec 32} (hmode : mode.toNat ≤ 1) :
    takenSetProbe mode wait s = (applyProbe (decide (mode.toNat = 1)) (clampTo 1 65535 wait.toNat) s,
      Reply.plain (if clampTo 1 65535 wait.toNat = wait.toNat then .ok else .clamped)) := by
  simp only [takenSetProbe, flagOf_eq_some.mpr ⟨hmode, rfl⟩]
  exact congrArg (fun st => (_, Reply.plain st)) takenStatus_decide_not

theorem takenSetProbe_modeless {mode : Byte} {wait : BitVec 32} (hmode : 1 < mode.toNat) :
    takenSetProbe mode wait s = (s, Reply.plain .range) := by
  have hnone : flagOf mode = none := Option.eq_none_iff_forall_ne_some.mpr fun f hf =>
    Nat.not_le.mpr hmode (flagOf_eq_some.mp hf).1
  simp only [takenSetProbe, hnone, refuse]

theorem applyProbe_eq (fetch : Bool) (limit : Nat) (s : State) (hsame : s.echo.fetchCheck = true → fetch = true) :
    applyProbe fetch limit s
      = prbTake (if waitDue (probeSet fetch limit s) then starveInHand (probeSet fetch limit s)
          else probeSet fetch limit s) := by
  have hno : ¬ (s.echo.fetchCheck = true ∧ ¬ fetch = true) := fun ⟨h, k⟩ => k (hsame h)
  simp only [applyProbe, if_neg hno]
  rfl

/-- A SET_PROBE that switches nothing off and starves no line writes the mode and the limit alone. -/
theorem applyProbe_quiet (hsame : s.echo.fetchCheck = true → fetch = true) (hset : prbSettled s)
    (hwait : ∀ h, s.echo.prb = .requesting h → (s.clock - h.takenAt).toNat < limit) :
    applyProbe fetch limit s = probeSet fetch limit s := by
  have hdue : ¬ waitDue (probeSet fetch limit s) = true := fun k => by
    obtain ⟨h, hprb, hlimit⟩ := waitDue_iff.mp k
    exact Nat.not_le.mpr (hwait h hprb) hlimit
  rw [applyProbe_eq _ _ _ hsame, if_neg hdue]
  exact prbTake_settled _ hset

/-- The single probe's line that has reached the new limit starves (R120). -/
theorem applyProbe_starves {h : LineInHand} {a : LineAddr} (hsame : s.echo.fetchCheck = true → fetch = true)
    (hprb : s.echo.prb = .requesting h) (hp : h.purpose = .singleProbe) (hsingle : s.echo.single = .busy a)
    (hcur : currentEntry s = none) (hq : s.echo.probeQueue = []) (hdue : limit ≤ (s.clock - h.takenAt).toNat) :
    applyProbe fetch limit s = { lineDropped s with echo := { s.echo with
      fetchCheck := fetch, waitLimit := limit, prb := .idle, single := .done a .starved } } := by
  have hwait : waitDue (probeSet fetch limit s) = true := waitDue_iff.mpr ⟨h, hprb, hdue⟩
  rw [applyProbe_eq _ _ _ hsame, if_pos hwait, starveInHand_requesting (s := probeSet fetch limit s) hprb,
    prbTake_starved_single (s := probeSet fetch limit s) hp hsingle hcur hq]
  rfl

end

/-! ### The switch to OFF (R118) -/

/-- Only the PRB and the probe port have changed. -/
def PrbOnly (s t : State) : Prop :=
  t = { s with tap := { s.tap with port := t.tap.port }, echo := { s.echo with prb := t.echo.prb } }

theorem PrbOnly.trans {s t u : State} (h : PrbOnly s t) (k : PrbOnly t u) : PrbOnly s u := by
  unfold PrbOnly at *; rw [k, h]

theorem giveUpLine_prbOnly (s : State) : PrbOnly s (giveUpLine s) := by
  unfold giveUpLine; split <;> rfl

theorem giveUpIf_prbOnly (k : Purpose) (s : State) : PrbOnly s (giveUpIf k s) := by
  unfold giveUpIf; split
  · exact giveUpLine_prbOnly s
  · rfl

/-- A single probe that has ended STARVED if it was BUSY (R124). -/
def SingleProbe.starved : SingleProbe → SingleProbe
  | .busy a => .done a .starved
  | x => x

theorem isBusy_false_iff {x : SingleProbe} : x.isBusy = false ↔ ∀ a, x ≠ .busy a := by
  cases x <;> simp [SingleProbe.isBusy]

theorem endSingle_free {s : State} (o : SingleOutcome) (h : ∀ a, s.echo.single ≠ .busy a) : endSingle o s = s := by
  unfold endSingle
  split
  · next a ha => exact absurd ha (h a)
  · rfl

theorem endSingle_starved (s : State) :
    endSingle .starved s = { s with echo := { s.echo with single := s.echo.single.starved } } := by
  have hsame {x : SingleProbe} (hx : s.echo.single = x) : s = { s with echo := { s.echo with single := x } } := by
    subst hx; rfl
  unfold endSingle
  cases h : s.echo.single with
  | busy a => rfl
  | idle => exact hsame h
  | done a o => exact hsame h

/-- The WATCHING entries alone are left, with an empty queue. -/
def watchingLeft (s : State) : State :=
  { s with echo := { s.echo with
      entries := s.echo.entries.filter (fun e => decide (e.status = .watching)), probeQueue := [] } }

/-- The WATCHING entries alone are left, with an empty queue and no BUSY single probe. -/
def probesEnded (s : State) : State :=
  { watchingLeft s with echo := { (watchingLeft s).echo with single := s.echo.single.starved } }

/-- The PRB has nothing to serve. -/
def NoWork (s : State) : Prop := s.echo.single.isBusy = false ∧ currentEntry s = none ∧ s.echo.probeQueue = []

theorem probesEnded_noWork (s : State) : NoWork (probesEnded s) := by
  refine ⟨?_, currentEntry_none.mpr fun e he => ?_, rfl⟩
  · show s.echo.single.starved.isBusy = false
    cases s.echo.single <;> rfl
  · rw [of_decide_eq_true (List.mem_filter.mp he).2]
    decide

namespace PrbOnly

variable {s t : State}

theorem noWork (h : PrbOnly s t) (hs : NoWork s) : NoWork t := by
  unfold PrbOnly at h; rw [h]; exact hs

theorem congr_watchingLeft (h : PrbOnly s t) : PrbOnly (watchingLeft s) (watchingLeft t) := by
  unfold PrbOnly at *; rw [h]; rfl

theorem congr_endSingle (h : PrbOnly s t) : PrbOnly (endSingle .starved s) (endSingle .starved t) := by
  unfold PrbOnly at *; rw [endSingle_starved, endSingle_starved, h]

theorem congr_probeSet (h : PrbOnly s t) (fetch : Bool) (limit : Nat) :
    PrbOnly (probeSet fetch limit s) (probeSet fetch limit t) := by
  unfold PrbOnly at *; rw [h]; rfl

end PrbOnly

theorem switchProbeOff_ends (s : State) : PrbOnly (probesEnded s) (switchProbeOff s) := by
  have hleft := (giveUpIf_prbOnly .currentEntry s).congr_watchingLeft
  have hended : endSingle .starved (watchingLeft s) = probesEnded s := endSingle_starved _
  rw [← hended]
  unfold switchProbeOff
  split
  · exact (hleft.trans (giveUpIf_prbOnly .singleProbe _)).congr_endSingle
  · next hsingle =>
    rw [endSingle_free (s := watchingLeft s) _ hsingle]
    exact hleft

/-- With nothing to serve, a line that starves ends nothing. -/
theorem starveLine_noWork {s : State} (l : LineInHand) (h : NoWork s) : starveLine l s = s := by
  obtain ⟨hsingle, hcur, -⟩ := h
  unfold starveLine
  split
  · exact endSingle_free _ (isBusy_false_iff.mp hsingle)
  · rw [hcur]

theorem starveInHand_prbOnly {s : State} (h : NoWork s) : PrbOnly s (starveInHand s) := by
  unfold starveInHand
  split
  · have hgiven := giveUpLine_prbOnly s
    rw [starveLine_noWork _ (hgiven.noWork h)]
    exact hgiven
  · rfl

/-- A SET_PROBE that switches FETCH_CHECK to OFF ends the probes (R118). A line in hand that is left then serves none of them, so
the new limit may drop it and starves nothing by it (notes/assumptions/34). -/
theorem applyProbe_off {s : State} (limit : Nat) (hfetch : s.echo.fetchCheck = true) :
    PrbOnly (probeSet false limit (probesEnded s)) (applyProbe false limit s) := by
  have hoff : s.echo.fetchCheck = true ∧ ¬ false = true := ⟨hfetch, Bool.false_ne_true⟩
  have hset := (switchProbeOff_ends s).congr_probeSet false limit
  have hidle : NoWork (probeSet false limit (probesEnded s)) := probesEnded_noWork s
  have hends : PrbOnly (probeSet false limit (probesEnded s))
      (if waitDue (probeSet false limit (switchProbeOff s)) then starveInHand (probeSet false limit (switchProbeOff s))
        else probeSet false limit (switchProbeOff s)) := by
    split
    · exact hset.trans (starveInHand_prbOnly (hset.noWork hidle))
    · exact hset
  have happly : applyProbe false limit s = prbTake (if waitDue (probeSet false limit (switchProbeOff s)) then
      starveInHand (probeSet false limit (switchProbeOff s)) else probeSet false limit (switchProbeOff s)) := by
    simp only [applyProbe, if_pos hoff]
    rfl
  rw [happly, prbTake_settled _ (.inr (.inr (hends.noWork hidle)))]
  exact hends

/-- What a state has of the ended probes that differs in the PRB and the port alone. -/
theorem PrbOnly.probesOff {s t : State} {limit : Nat} (h : PrbOnly (probeSet false limit (probesEnded s)) t) :
    t = { s with echo := t.echo, tap := { s.tap with port := t.tap.port } }
      ∧ t.echo.entries = s.echo.entries.filter (fun e => decide (e.status = .watching)) ∧ t.echo.probeQueue = []
      ∧ t.echo.single = s.echo.single.starved ∧ t.echo.counters = s.echo.counters
      ∧ t.echo.fetchCheck = false ∧ t.echo.waitLimit = limit := by
  unfold PrbOnly at h
  rw [h]
  exact ⟨rfl, rfl, rfl, rfl, rfl, rfl, rfl⟩

/-! ### PROBE_LINE (R123) -/

section
variable {s : State} {address : BitVec 40}

theorem takenProbeLine_beyond (h : 2 ^ 36 ≤ address.toNat) : takenProbeLine address s = (s, Reply.plain .range) := by
  rw [takenProbeLine, if_pos h, refuse]

theorem takenProbeLine_busy (h : address.toNat < 2 ^ 36) (hsingle : s.echo.single.isBusy = true) :
    takenProbeLine address s = (s, Reply.plain .busy) := by
  rw [takenProbeLine, if_neg (Nat.not_le.mpr h), if_pos hsingle, refuse]

/-- The state with the single probe BUSY at a line. -/
def singleBegun (a : LineAddr) (s : State) : State := { s with echo := { s.echo with single := .busy a } }

theorem takenProbeLine_begins (h : address.toNat < 2 ^ 36) (hsingle : s.echo.single.isBusy = false) :
    takenProbeLine address s = (prbTake (singleBegun (lineOfByte address) s), Reply.plain .ok) := by
  rw [takenProbeLine, if_neg (Nat.not_le.mpr h), hsingle, if_neg Bool.false_ne_true, done]
  rfl

/-- A PRB that is free takes a BUSY single probe's line before any other (R119). -/
theorem prbTake_busy {a : LineAddr} (hprb : s.echo.prb = .idle) (hbrst : s.tap.brstAsserted = false)
    (hsingle : s.echo.single = .busy a) : prbTake s = lineTaken
      { purpose := .singleProbe, address := a, index := 0, takenAt := s.clock, discard := false } s := by
  have hfree : ¬ (s.echo.prb ≠ .idle ∨ s.tap.brstAsserted = true) := by simp [hprb, hbrst]
  rw [prbTake, if_neg hfree]
  simp only [hsingle]
  exact takeLine_eq _ s

end

/-- Settles O58: SET_PROBE by its switch to OFF and the wait of the line in hand, PROBE_LINE by its checks and the PRB's take. -/
theorem probesAreCommanded : Obligations.ProbesAreCommanded := by
  intro l mode wait address s c limit status line
  have hset {t : State} {st : Status} (h : takenSetProbe mode wait s = (t, Reply.plain st)) : Answers l c s t st := by
    rw [Answers, ← Reply.plain, ← h]
    rfl
  have hprobe {t : State} {st : Status} (h : takenProbeLine address s = (t, Reply.plain st)) :
      Answers l (.probeLine l address) s t st := by
    rw [Answers, ← Reply.plain, ← h]
    rfl
  have hline : lineOfByte address = line := by rw [lineOfByte, Nat.mul_comm]
  have htaken (hmode : mode.toNat ≤ 1) : Answers l c s (applyProbe (decide (mode.toNat = 1)) limit s) status :=
    hset (takenSetProbe_taken hmode)
  refine ⟨fun hmode => hset (takenSetProbe_modeless hmode), fun hmode hsettled hwait => ?_,
    fun h a hmode hfetch hprb hp hsingle hcur hq hdue => ?_, fun hmode hfetch => ?_,
    fun h => hprobe (takenProbeLine_beyond h), fun a h hsingle => hprobe (takenProbeLine_busy h (by rw [hsingle]; rfl)),
    fun h hfree => ?_⟩
  · have hsame : s.echo.fetchCheck = true → decide (mode.toNat = 1) = true := fun hf =>
      decide_eq_true (hmode.resolve_right fun k => Bool.false_ne_true (k.2.symm.trans hf))
    have hquiet := htaken (hmode.elim (·.le) fun k => k.1.le.trans (Nat.zero_le 1))
    rwa [applyProbe_quiet hsame hsettled hwait] at hquiet
  · have hstarves := htaken hmode
    rw [applyProbe_starves (fun k => hfetch ▸ k) hprb hp hsingle hcur hq hdue] at hstarves
    exact ⟨_, hstarves, rfl, rfl, rfl⟩
  · have hanswer := htaken (hmode.le.trans (Nat.zero_le 1))
    have hoff : decide (mode.toNat = 1) = false := by rw [hmode]; rfl
    rw [hoff] at hanswer
    obtain ⟨hframe, hentries, hqueue, hsingle, hcounters, hmode', hlimit⟩ := (applyProbe_off limit hfetch).probesOff
    refine ⟨_, hanswer, hframe, hentries, hqueue, ?_, hcounters, hmode', hlimit⟩
    rw [hsingle]
    cases s.echo.single <;> rfl
  · have hbegins := hprobe (takenProbeLine_begins h (isBusy_false_iff.mpr hfree))
    rw [hline] at hbegins
    refine ⟨fun hblocked => ?_, fun hprb hbrst hphase hpgnt => ?_⟩
    · rwa [prbTake_settled (singleBegun line s) (hblocked.imp_right .inl)] at hbegins
    · rw [prbTake_busy (s := singleBegun line s) hprb hbrst rfl] at hbegins
      refine ⟨_, hbegins, ?_, ?_⟩
      · simp [lineTaken, singleBegun, hphase, hpgnt]
      · simp [preq, lineTaken, singleBegun, hphase, hpgnt]

end Sys2Proof.Machine
end

/-! ## A judgement of CALM_N -/
section

namespace Sys2Proof.Machine

/-! ### A new hold-off factor, and the entry to HOLDOFF (R81, R135) -/

/-- The state after a new factor: the pairs and the sources aside, F alone is new (R81). -/
theorem setFactor_eq (f : Nat) (s : State) : setFactor f s
    = { s with pairs := (setFactor f s).pairs, iar := (setFactor f s).iar, vrd := { s.vrd with factor := f } } := by
  have hvrd := setFactor_vrd s f
  have honly := setFactor_only s f
  generalize setFactor f s = t at hvrd honly
  rw [← hvrd, honly]

/-- HOLDOFF entered, before F becomes the hold-off factor (R135). -/
def holdoffEntered (s : State) : State :=
  post boardSource .holdoffEntered (s.modVrd fun v =>
    { v with
      verdict := .holdoff { entryTime := s.clock, highRunStart := none, limitPassed := false }
      counters := { v.counters with holdoffs := satInc v.counters.holdoffs } })

theorem enterHoldoff_eq (s : State) :
    enterHoldoff s = setFactor s.vrd.settings.holdoffFactor (holdoffEntered s) := rfl

theorem enterHoldoff_posted (s : State) : PostedAt boardSource .holdoffEntered s (enterHoldoff s) := by
  have h : PostedAt boardSource .holdoffEntered s (holdoffEntered s) := (post_posted _ _ _).1
  exact h.congr rfl (setFactor_source _ _ boardSource_not_pair) rfl

/-! ### The line in each state of the verdict (R134 to R136) -/

section
variable {s : State}

/-- The sensed level of CALM_N recorded (R134). -/
def levelSensed (high : Bool) (s : State) : State := s.modVrd fun v => { v with sensedHigh := high }

/-- Only in FAULT does the part itself drive CALM_N (R133). -/
theorem drivingCalm_outside (hv : s.vrd.verdict ≠ .fault) : drivingCalm s = false := by
  rw [drivingCalm, decide_eq_false hv, Bool.false_and]

theorem exec_calmNJudgement_fault (high : Bool) (hv : s.vrd.verdict = .fault) :
    exec (.calmNJudgement high) s = .next (levelSensed (high && !s.vrd.settings.alarmDrive) s) := by
  have hdrives : drivingCalm s = s.vrd.settings.alarmDrive := by
    rw [drivingCalm, decide_eq_true hv, Bool.true_and]
  simp only [exec, execCalmNJudgement, hdrives, hv, ite_self]
  rfl

theorem exec_calmNJudgement_normal (high : Bool) (hv : s.vrd.verdict = .normal) : exec (.calmNJudgement high) s
    = .next (if high = false ∧ s.vrd.settings.holdoffLimit ≠ 0 then enterHoldoff (levelSensed high s)
        else levelSensed high s) := by
  simp only [exec, execCalmNJudgement, drivingCalm_outside (hv ▸ nofun : s.vrd.verdict ≠ .fault), hv, Bool.not_false,
    Bool.and_true, Bool.not_eq_true, Bool.false_eq_true, if_false]
  rfl

theorem exec_calmNJudgement_holdoff (high : Bool) {h : HoldOff} (hv : s.vrd.verdict = .holdoff h) :
    exec (.calmNJudgement high) s
      = .next ((levelSensed high s).modVrd fun v => { v with verdict := .holdoff (h.judged s.clock high) }) := by
  simp only [exec, execCalmNJudgement, drivingCalm_outside (hv ▸ nofun : s.vrd.verdict ≠ .fault), hv, Bool.not_false,
    Bool.and_true, Bool.false_eq_true, if_false]
  rfl

end

/-- Settles O49, by the verdict: FAULT records the level, NORMAL may enter HOLDOFF, and HOLDOFF moves its high run. -/
theorem calmIsJudged : Obligations.CalmIsJudged := by
  intro lineHigh s
  refine ⟨fun hv => exec_calmNJudgement_fault lineHigh hv, fun hv hstays => ?_, fun hv hlow hlimit => ?_,
    fun h hv => ?_⟩
  · have hno : ¬ (lineHigh = false ∧ s.vrd.settings.holdoffLimit ≠ 0) := fun ⟨hlow, hlimit⟩ =>
      hstays.elim (fun hhigh => Bool.false_ne_true (hlow.symm.trans hhigh)) hlimit
    rw [exec_calmNJudgement_normal lineHigh hv, if_neg hno]
    rfl
  · subst hlow
    rw [exec_calmNJudgement_normal false hv, if_pos ⟨rfl, hlimit⟩, enterHoldoff_eq]
    refine ⟨_, rfl, setFactor_eq _ (holdoffEntered (levelSensed false s)), enterHoldoff_posted (levelSensed false s),
      fun p => ?_⟩
    obtain ⟨hdesc, hest, htimeout, -⟩ :=
      setFactor_pair s.vrd.settings.holdoffFactor (holdoffEntered (levelSensed false s)) p
    exact ⟨hdesc, hest, htimeout⟩
  · rw [exec_calmNJudgement_holdoff lineHigh hv, HoldOff.judged]
    cases h.highRunStart <;> rfl

end Sys2Proof.Machine
end

/-! ## SET_VERDICT: its operands, and what it does about channel loss -/
section

namespace Sys2Proof.Machine

/-! ### The operands (R129) -/

theorem factorOf_eq_some {b : Byte} {f : Nat} :
    factorOf b = some f ↔ (b.toNat = 1 ∨ b.toNat = 2 ∨ b.toNat = 4) ∧ b.toNat = f := by
  simp only [factorOf, ← BitVec.toNat_inj]
  split_ifs with h1 h2 h4 <;> simp_all

/-- The structural fields of SET_VERDICT have values that Table 11.3 gives. -/
def VerdictFits (o : SetVerdictOps) : Prop :=
  (o.holdoffFactor.toNat = 1 ∨ o.holdoffFactor.toNat = 2 ∨ o.holdoffFactor.toNat = 4)
    ∧ o.fenceOnLoss.toNat ≤ 1 ∧ o.alarmDrive.toNat ≤ 1

/-- The settings that SET_VERDICT writes. -/
def describedVerdict (o : SetVerdictOps) : VerdictSettings :=
  o.tuned (decide (o.fenceOnLoss.toNat = 1)) (decide (o.alarmDrive.toNat = 1)) o.holdoffFactor.toNat

theorem describedVerdict_eq (o : SetVerdictOps) : describedVerdict o =
    { channelLossLimit := min o.channelLossLimit.toNat 65535, fenceOnLoss := decide (o.fenceOnLoss.toNat = 1)
      alarmDrive := decide (o.alarmDrive.toNat = 1), holdoffFactor := o.holdoffFactor.toNat
      releaseSettle := min (max o.releaseSettle.toNat 1) 65535
      holdoffLimit := min o.holdoffLimit.toNat 16777215 } := by
  simp only [describedVerdict, SetVerdictOps.tuned, clampTo, Nat.max_zero]

/-- The release settle and the hold-off factor, in the order of R130. -/
def actOnSettle (s : State) : State := actOnFactor (actOnReleaseSettle s)

/-- The three settings that act on a hold-off, in the order of R130. -/
def actOnHoldoff (s : State) : State := actOnSettle (actOnHoldoffLimit s)

theorem takenSetVerdict_fit {o : SetVerdictOps} (h : VerdictFits o) (s : State) : takenSetVerdict o s
    = (actOnHoldoff (actOnLossSettings s.vrd.settings.fenceOnLoss (withSettings (describedVerdict o) s)),
      Reply.plain (takenStatus (o.clamped (describedVerdict o)))) := by
  obtain ⟨hfactor, hfence, halarm⟩ := h
  simp only [takenSetVerdict, factorOf_eq_some.mpr ⟨hfactor, rfl⟩, flagOf_eq_some.mpr ⟨hfence, rfl⟩,
    flagOf_eq_some.mpr ⟨halarm, rfl⟩]
  rfl

theorem takenSetVerdict_unfit {o : SetVerdictOps} (h : ¬ VerdictFits o) (s : State) :
    takenSetVerdict o s = (s, Reply.plain .range) := by
  unfold takenSetVerdict
  split
  · next f fence alarm hfactor hfence halarm =>
    exact absurd ⟨(factorOf_eq_some.mp hfactor).1, (flagOf_eq_some.mp hfence).1, (flagOf_eq_some.mp halarm).1⟩ h
  · rfl

/-! ### Fence-on-loss while loss stands (R130, R132) -/

section
variable {s t u : State} {was : Bool}

/-- The trigger of channel loss follows a changed fence-on-loss. -/
def actOnFence (was : Bool) (s : State) : State :=
  if ¬ was ∧ s.vrd.settings.fenceOnLoss then joinTrigger .channelLoss s
  else if was ∧ ¬ s.vrd.settings.fenceOnLoss then leaveTrigger .channelLoss s
  else s

theorem actOnFence_same (h : s.vrd.settings.fenceOnLoss = was) : actOnFence was s = s := by
  cases was <;> simp [actOnFence, h]

theorem actOnFence_on (h : s.vrd.settings.fenceOnLoss = true) : actOnFence false s = joinTrigger .channelLoss s := by
  simp [actOnFence, h]

theorem actOnFence_off (h : s.vrd.settings.fenceOnLoss = false) : actOnFence true s = leaveTrigger .channelLoss s := by
  simp [actOnFence, h]

/-- A trigger that is in the set already is not joined again (notes/assumptions/29). -/
theorem actOnFence_known (hf : s.vrd.settings.fenceOnLoss = true) (h : s.vrd.triggers.has .channelLoss = true) :
    actOnFence was s = s := by
  cases was with
  | false => rw [actOnFence_on hf, joinTrigger_known h]
  | true => exact actOnFence_same hf

theorem joinTrigger_loss (s : State) : (joinTrigger .channelLoss s).vrd.triggers.channelLoss = true := by
  obtain ⟨b, hhas, -⟩ := joinTrigger_stands .channelLoss s (k := .channelLoss) rfl
  exact hhas.trans (by simp)

theorem joinTrigger_losses (m : Trigger) (s : State) :
    (joinTrigger m s).vrd.counters.channelLosses = s.vrd.counters.channelLosses := by
  by_cases hm : s.vrd.triggers.has m = true
  · rw [joinTrigger_known hm]
  have hnew : s.vrd.triggers.has m = false := Bool.eq_false_iff.mpr hm
  cases hv : s.vrd.verdict with
  | fault => rw [joinTrigger_fault hnew hv]; rfl
  | normal => rw [joinTrigger_normal hnew hv]; rfl
  | holdoff h => rw [joinTrigger_holdoff hnew hv, faultReached_vrd]

theorem actOnFence_only (was : Bool) (s : State) : VerdictOnly s (actOnFence was s) := by
  unfold actOnFence
  split
  · exact joinTrigger_only s _
  · split
    · exact leaveTrigger_only s _
    · exact .refl s

theorem actOnFence_losses (was : Bool) (s : State) :
    (actOnFence was s).vrd.counters.channelLosses = s.vrd.counters.channelLosses := by
  unfold actOnFence
  split
  · exact joinTrigger_losses _ s
  · split <;> rfl

theorem VerdictOnly.tap (h : VerdictOnly s t) : t.tap = s.tap := by rw [h]

/-! ### The loss settings taken (R10, R130) -/

theorem enterLost_presence (s : State) : (enterLost s).tap.presence = .lost := by rw [(enterLost_only s).tap]; rfl

theorem enterLost_losses (s : State) :
    (enterLost s).vrd.counters.channelLosses = satInc s.vrd.counters.channelLosses := by
  rw [enterLost_eq]
  split
  · exact joinTrigger_losses _ (lossCounted s)
  · rfl

theorem actOnLossSettings_due (h : lossDue s = true) : actOnLossSettings was s = actOnFence was (enterLost s) := by
  have hlost : lossStands (enterLost s) = true := decide_eq_true (enterLost_presence s)
  unfold actOnLossSettings
  rw [if_pos h]
  exact if_pos hlost

theorem actOnLossSettings_lost (h : s.tap.presence = .lost) : actOnLossSettings was s = actOnFence was s := by
  have hnotdue : ¬ lossDue s = true := by simp [lossDue, h]
  have hlost : lossStands s = true := decide_eq_true h
  unfold actOnLossSettings
  rw [if_neg hnotdue]
  exact if_pos hlost

theorem actOnLossSettings_quiet (hdue : lossDue s = false) (h : s.tap.presence ≠ .lost) :
    actOnLossSettings was s = s := by
  have hnotdue : ¬ lossDue s = true := Bool.eq_false_iff.mp hdue
  have hlost : ¬ lossStands s = true := by simp [lossStands, h]
  unfold actOnLossSettings
  rw [if_neg hnotdue]
  exact if_neg hlost

/-- Fence-on-loss switched on while loss stands. -/
theorem actOnLossSettings_joins (hlost : s.tap.presence = .lost) (hfence : s.vrd.settings.fenceOnLoss = true) :
    actOnLossSettings false s = joinTrigger .channelLoss s := by
  rw [actOnLossSettings_lost hlost, actOnFence_on hfence]

/-- Fence-on-loss switched off while loss stands. -/
theorem actOnLossSettings_leaves (hlost : s.tap.presence = .lost) (hfence : s.vrd.settings.fenceOnLoss = false) :
    actOnLossSettings true s = leaveTrigger .channelLoss s := by
  rw [actOnLossSettings_lost hlost, actOnFence_off hfence]

/-- The limit not reached and, while loss stands, fence-on-loss as it was: nothing comes of the settings. -/
theorem actOnLossSettings_rests
    (hstop : s.tap.presence = .stopped →
      s.vrd.settings.channelLossLimit = 0 ∨ s.tap.absence < s.vrd.settings.channelLossLimit)
    (hlost : s.tap.presence = .lost → s.vrd.settings.fenceOnLoss = was) : actOnLossSettings was s = s := by
  by_cases h : s.tap.presence = .lost
  · rw [actOnLossSettings_lost h, actOnFence_same (hlost h)]
  · refine actOnLossSettings_quiet (Bool.eq_false_iff.mpr fun hdue => ?_) h
    simp only [lossDue, Bool.and_eq_true, decide_eq_true_eq] at hdue
    obtain ⟨⟨hstopped, hnz⟩, hreached⟩ := hdue
    exact (hstop hstopped).elim hnz (Nat.not_lt.mpr hreached)

/-- A limit that the absence count has reached makes the monitor LOST, and its trigger moves the verdict to FAULT. -/
theorem actOnLossSettings_loses (was : Bool) (h : lossDue s = true) :
    (actOnLossSettings was s).tap.presence = .lost
      ∧ (actOnLossSettings was s).vrd.counters.channelLosses = satInc s.vrd.counters.channelLosses
      ∧ (s.vrd.settings.fenceOnLoss = true → s.vrd.triggers.channelLoss = false →
          (actOnLossSettings was s).vrd.triggers.channelLoss = true
            ∧ (actOnLossSettings was s).vrd.verdict = .fault) := by
  rw [actOnLossSettings_due h]
  refine ⟨?_, (actOnFence_losses was _).trans (enterLost_losses s), fun hf hnew => ?_⟩
  · rw [(actOnFence_only was _).tap, enterLost_presence]
  · obtain ⟨-, -, hsettings, -⟩ := enterLost_steady s
    have hjoined : enterLost s = joinTrigger .channelLoss (lossCounted s) := by rw [enterLost_eq, if_pos hf]
    have hhas : (enterLost s).vrd.triggers.channelLoss = true := by rw [hjoined]; exact joinTrigger_loss _
    rw [actOnFence_known (by rw [hsettings]; exact hf) hhas]
    exact ⟨hhas, by rw [hjoined]; exact joinTrigger_verdict (lossCounted s) .channelLoss hnew⟩

/-- Of the channel tap the monitor's state alone may have changed, and beside it what the verdict's operations write. -/
def LossOnly (s t : State) : Prop :=
  t.tap = { s.tap with presence := t.tap.presence }
    ∧ t.streams = s.streams ∧ t.commitQueue = s.commitQueue ∧ t.echo = s.echo

theorem LossOnly.verdict (h : LossOnly s t) (k : VerdictOnly t u) : LossOnly s u := by
  rw [k]; exact h

theorem actOnLossSettings_only (was : Bool) (s : State) : LossOnly s (actOnLossSettings was s) := by
  have hself : LossOnly s s := ⟨rfl, rfl, rfl, rfl⟩
  have hlost : LossOnly s (s.modTap fun t => { t with presence := .lost }) := ⟨rfl, rfl, rfl, rfl⟩
  by_cases hdue : lossDue s = true
  · rw [actOnLossSettings_due hdue]
    exact (hlost.verdict (enterLost_only s)).verdict (actOnFence_only was _)
  · by_cases h : s.tap.presence = .lost
    · rw [actOnLossSettings_lost h]
      exact hself.verdict (actOnFence_only was s)
    · rw [actOnLossSettings_quiet (Bool.eq_false_iff.mpr hdue) h]
      exact hself

end

end Sys2Proof.Machine
end

/-! ## SET_VERDICT in a hold-off, and CLEAR_BOARD -/
section

namespace Sys2Proof.Machine

/-! ### What a new F leaves (R81, R136) -/

/-- What the end of a hold-off and a new factor leave: the health of each pair that is not DRAINING, the sources that no pair owns,
and of the Verdict Unit the settings, the triggers and the counters. -/
structure Factored (s t : State) : Prop where
  only : VerdictOnly s t
  settings : t.vrd.settings = s.vrd.settings
  triggers : t.vrd.triggers = s.vrd.triggers
  counters : t.vrd.counters = s.vrd.counters
  health : ∀ p, (s.pair p).health ≠ .draining → (t.pair p).health = (s.pair p).health
  sources : ∀ j, (∀ p, j ≠ pairSource p) → t.source j = s.source j

theorem Factored.refl (s : State) : Factored s s := ⟨.refl s, rfl, rfl, rfl, fun _ _ => rfl, fun _ _ => rfl⟩

theorem setFactor_factored (f : Nat) (s : State) : Factored s (setFactor f s) where
  only := setFactor_only s f
  settings := by rw [setFactor_vrd]
  triggers := by rw [setFactor_vrd]
  counters := by rw [setFactor_vrd]
  health p := by
    obtain ⟨-, -, -, -, hhealth⟩ := setFactor_pair f s p
    exact hhealth
  sources _ hj := setFactor_source f s hj

theorem releaseHoldoff_factored (s : State) : Factored s (releaseHoldoff s) := by
  have hfactored := setFactor_factored 1 (s.modVrd fun v => { v with verdict := .normal })
  rw [releaseHoldoff]
  generalize setFactor 1 (s.modVrd fun v => { v with verdict := .normal }) = t at hfactored ⊢
  obtain ⟨honly, hsettings, htriggers, hcounters, hhealth, hsources⟩ := hfactored
  exact ⟨(VerdictOnly.modVrd s _).trans honly, hsettings, htriggers, hcounters, hhealth, hsources⟩

/-! ### The release settle and the factor (R130) -/

section
variable {s : State} {h : HoldOff}

theorem releaseDue_iff : releaseDue s h = true
    ↔ ∃ k, h.highRunStart = some k ∧ s.vrd.settings.releaseSettle ≤ (s.clock - k).toNat := by
  cases hrun : h.highRunStart <;> simp [releaseDue, HoldOff.highRun, hrun, elapsed]

theorem limitDue_iff : limitDue s h = true ↔ h.limitPassed = false ∧ s.vrd.settings.holdoffLimit ≠ 0
    ∧ s.vrd.settings.holdoffLimit ≤ (s.clock - h.entryTime).toNat := by
  simp only [limitDue, Bool.and_eq_true, Bool.not_eq_true', decide_eq_true_eq, and_assoc]
  rfl

theorem actOnSettle_outside (hv : ∀ h, s.vrd.verdict ≠ .holdoff h) : actOnSettle s = s := by
  cases hverdict : s.vrd.verdict with
  | holdoff h => exact absurd hverdict (hv h)
  | normal => simp only [actOnSettle, actOnReleaseSettle, actOnFactor, hverdict]
  | fault => simp only [actOnSettle, actOnReleaseSettle, actOnFactor, hverdict]

theorem actOnSettle_settled (hv : s.vrd.verdict = .holdoff h) (hdue : releaseDue s h = true) :
    actOnSettle s = releaseHoldoff s := by
  have hnormal : (releaseHoldoff s).vrd.verdict = .normal := by rw [releaseHoldoff_frame]
  have hreleased : actOnReleaseSettle s = releaseHoldoff s := by simp only [actOnReleaseSettle, hv, hdue, if_true]
  rw [actOnSettle, hreleased]
  simp only [actOnFactor, hnormal]

/-- A hold-off that goes on multiplies by the new factor. -/
theorem actOnSettle_unsettled (hv : s.vrd.verdict = .holdoff h) (hdue : releaseDue s h = false) :
    actOnSettle s = if s.vrd.settings.holdoffFactor ≠ s.vrd.factor then setFactor s.vrd.settings.holdoffFactor s else s := by
  have hstays : actOnReleaseSettle s = s := by
    simp only [actOnReleaseSettle, hv, hdue, Bool.false_eq_true, if_false]
  rw [actOnSettle, hstays]
  simp only [actOnFactor, hv]

/-- Where every T is the one that F gives, a factor that is F already changes nothing when it is set again. -/
theorem actOnSettle_timed (hv : s.vrd.verdict = .holdoff h) (hdue : releaseDue s h = false)
    (htimed : ∀ p, (s.pair p).timeout = timeoutOf (s.pair p).desc (s.pair p).est s.vrd.factor) :
    actOnSettle s = setFactor s.vrd.settings.holdoffFactor s := by
  rw [actOnSettle_unsettled hv hdue]
  split
  · rfl
  · next hsame =>
    rw [not_not.mp hsame, setFactor_unchanged fun p => (htimed p).symm]
    rfl

theorem actOnSettle_factored (s : State) : Factored s (actOnSettle s) := by
  cases hv : s.vrd.verdict with
  | holdoff h =>
    cases hdue : releaseDue s h with
    | true => rw [actOnSettle_settled hv hdue]; exact releaseHoldoff_factored s
    | false =>
      rw [actOnSettle_unsettled hv hdue]
      split
      · exact setFactor_factored _ s
      · exact .refl s
  | normal => rw [actOnSettle_outside fun h => by rw [hv]; nofun]; exact .refl s
  | fault => rw [actOnSettle_outside fun h => by rw [hv]; nofun]; exact .refl s

/-! ### The hold-off limit (R130, R137) -/

theorem actOnHoldoff_outside (hv : ∀ h, s.vrd.verdict ≠ .holdoff h) : actOnHoldoff s = s := by
  have hlimit : actOnHoldoffLimit s = s := by
    unfold actOnHoldoffLimit
    split
    · next h hverdict => exact absurd hverdict (hv h)
    · rfl
  rw [actOnHoldoff, hlimit, actOnSettle_outside hv]

theorem actOnHoldoff_ends (hv : s.vrd.verdict = .holdoff h) (hlimit : s.vrd.settings.holdoffLimit = 0) :
    actOnHoldoff s = releaseHoldoff s := by
  have hends : actOnHoldoffLimit s = releaseHoldoff s := by simp only [actOnHoldoffLimit, hv, hlimit, if_true]
  rw [actOnHoldoff, hends, actOnSettle_outside fun k => by rw [releaseHoldoff_frame]; nofun]

theorem actOnHoldoff_waits (hv : s.vrd.verdict = .holdoff h) (hlimit : s.vrd.settings.holdoffLimit ≠ 0)
    (hdue : limitDue s h = false) : actOnHoldoff s = actOnSettle s := by
  have hwaits : actOnHoldoffLimit s = s := by
    simp only [actOnHoldoffLimit, hv, if_neg hlimit, hdue, Bool.false_eq_true, if_false]
  rw [actOnHoldoff, hwaits]

theorem actOnHoldoff_passes (hv : s.vrd.verdict = .holdoff h) (hdue : limitDue s h = true) :
    actOnHoldoff s = actOnSettle (passLimit h s) := by
  obtain ⟨-, hlimit, -⟩ := limitDue_iff.mp hdue
  have hpasses : actOnHoldoffLimit s = passLimit h s := by
    simp only [actOnHoldoffLimit, hv, if_neg hlimit, hdue, if_true]
  rw [actOnHoldoff, hpasses]

/-- The passing promotes the pending pairs in HOLDOFF, or one of them moves the verdict to FAULT (R95, R133). -/
theorem passLimit_promotes (h : HoldOff) (s : State) : PendingPromoted (limitPassed h s) (passLimit h s)
    ∨ ∃ p, FaultFromHoldoff (.pair p) (limitPassed h s) (passLimit h s) := by
  have hl (p : PairIx) (hp : ((limitPassed h s).pair p).hev.promotionPending = true) : p ∈ promotionOrder (limitPassed h s) :=
    (mem_promotionOrder _ p).mpr hp
  by_cases hsome : ∃ p, promotesTrigger (limitPassed h s) p = true
  · obtain ⟨p, -, hfault⟩ := promotePairs_fault (s := limitPassed h s) rfl hl hsome
    exact .inr ⟨p, hfault⟩
  · exact .inl (promotePairs_quiet hl fun p => Bool.eq_false_iff.mpr fun hp => hsome ⟨p, hp⟩)

theorem passLimit_none (hnone : ∀ p, (s.pair p).hev.promotionPending = false) : passLimit h s = limitPassed h s :=
  promotePairs_none (s := limitPassed h s) hnone _

theorem passLimit_failed {p : PairIx} (hp : (s.pair p).hev.promotionPending = true) :
    ((passLimit h s).pair p).health = .failed := by
  have hpending : ((limitPassed h s).pair p).hev.promotionPending = true := hp
  obtain ⟨-, hfailed, -⟩ | ⟨r, -, -, -, -, -, -, hpairs, -⟩ := passLimit_promotes h s
  · have hpair := hfailed p
    rw [if_pos hpending] at hpair
    rw [hpair.1]
    rfl
  · obtain ⟨-, -, -, -, hhealth, -⟩ := hpairs p
    exact hhealth hpending

theorem passLimit_counters (h : HoldOff) (s : State) :
    (passLimit h s).vrd.counters.channelLosses = s.vrd.counters.channelLosses
      ∧ (passLimit h s).vrd.counters.limitPasses = satInc s.vrd.counters.limitPasses := by
  have hpromotes := passLimit_promotes h s
  generalize passLimit h s = t at hpromotes ⊢
  obtain ⟨hframe, -⟩ | ⟨p, hframe, -⟩ := hpromotes <;> rw [hframe] <;> exact ⟨rfl, rfl⟩

/-- The triggers that the promotions bring about are those of pairs. -/
theorem passLimit_loss (h : HoldOff) (s : State) :
    (passLimit h s).vrd.triggers.channelLoss = s.vrd.triggers.channelLoss := by
  obtain ⟨hframe, -⟩ | ⟨p, -, -, -, -, hhas, -⟩ := passLimit_promotes h s
  · rw [hframe]; rfl
  · refine Bool.eq_iff_iff.mpr ((hhas .channelLoss).trans ⟨fun hor => ?_, .inl⟩)
    rcases hor with hwas | hpair | ⟨r, hpair, -⟩
    · exact hwas
    · cases hpair
    · cases hpair

/-! ### What the hold-off's settings leave of channel loss -/

/-- What is not the hold-off's to move: beside the verdict's part of the state the settings, and channel loss with its counter. -/
structure LossKept (s t : State) : Prop where
  only : VerdictOnly s t
  settings : t.vrd.settings = s.vrd.settings
  trigger : t.vrd.triggers.channelLoss = s.vrd.triggers.channelLoss
  losses : t.vrd.counters.channelLosses = s.vrd.counters.channelLosses

theorem LossKept.trans {s t u : State} (h : LossKept s t) (k : LossKept t u) : LossKept s u :=
  ⟨h.only.trans k.only, k.settings.trans h.settings, k.trigger.trans h.trigger, k.losses.trans h.losses⟩

theorem Factored.lossKept {s t : State} (h : Factored s t) : LossKept s t :=
  ⟨h.only, h.settings, by rw [h.triggers], by rw [h.counters]⟩

theorem passLimit_lossKept (hv : s.vrd.verdict = .holdoff h) : LossKept s (passLimit h s) := by
  obtain ⟨-, -, hsettings, -⟩ := passLimit_steady s hv
  exact ⟨passLimit_only s h, hsettings, passLimit_loss h s, (passLimit_counters h s).1⟩

theorem actOnHoldoff_lossKept (s : State) : LossKept s (actOnHoldoff s) := by
  have hlimit : LossKept s (actOnHoldoffLimit s) := by
    unfold actOnHoldoffLimit
    split
    · next h hv =>
      split
      · exact (releaseHoldoff_factored s).lossKept
      · split
        · exact passLimit_lossKept hv
        · exact (Factored.refl s).lossKept
    · exact (Factored.refl s).lossKept
  exact hlimit.trans (actOnSettle_factored _).lossKept

end

/-! ### A hold-off that ends, goes on, or passes its limit (R130) -/

/-- F is this factor, and every T is computed with it anew (R81). -/
def Retimed (f : Nat) (s t : State) : Prop :=
  t.vrd.factor = f ∧ ∀ p, (t.pair p).timeout = timeoutOf (s.pair p).desc (s.pair p).est f

theorem setFactor_retimed (f : Nat) (s : State) : Retimed f s (setFactor f s) := by
  refine ⟨by rw [setFactor_vrd], fun p => ?_⟩
  obtain ⟨-, -, htimeout, -⟩ := setFactor_pair f s p
  exact htimeout

theorem releaseHoldoff_retimed (s : State) : Retimed 1 s (releaseHoldoff s) := by
  refine ⟨by rw [releaseHoldoff_frame], fun p => ?_⟩
  obtain ⟨-, -, htimeout, -⟩ := releaseHoldoff_pair s p
  exact htimeout

section
variable {s : State} {h : HoldOff}

theorem actOnHoldoff_releases (hv : s.vrd.verdict = .holdoff h)
    (hends : s.vrd.settings.holdoffLimit = 0 ∨ (limitDue s h = false ∧ releaseDue s h = true)) :
    actOnHoldoff s = releaseHoldoff s := by
  by_cases hlimit : s.vrd.settings.holdoffLimit = 0
  · exact actOnHoldoff_ends hv hlimit
  · obtain ⟨hdue, hsettled⟩ := hends.resolve_left hlimit
    rw [actOnHoldoff_waits hv hlimit hdue, actOnSettle_settled hv hsettled]

/-- A limit reached passes, and every pending pair becomes FAILED, whatever the settle and the factor do next. -/
theorem actOnHoldoff_passing (hv : s.vrd.verdict = .holdoff h) (hdue : limitDue s h = true) :
    (actOnHoldoff s).vrd.counters.limitPasses = satInc s.vrd.counters.limitPasses
      ∧ ∀ p, (s.pair p).hev.promotionPending = true → ((actOnHoldoff s).pair p).health = .failed := by
  rw [actOnHoldoff_passes hv hdue]
  have hsettle := actOnSettle_factored (passLimit h s)
  refine ⟨?_, fun p hp => ?_⟩
  · rw [hsettle.counters, (passLimit_counters h s).2]
  · have hfailed : ((passLimit h s).pair p).health = .failed := passLimit_failed hp
    rw [hsettle.health p (by rw [hfailed]; nofun), hfailed]

/-- With no pair pending, the passing is posted, and then the settle and the factor act on the hold-off. -/
theorem actOnHoldoff_passesAlone (hv : s.vrd.verdict = .holdoff h) (hdue : limitDue s h = true)
    (hnone : ∀ p, (s.pair p).hev.promotionPending = false) :
    PostedAt boardSource .holdoffLimit s (actOnHoldoff s)
      ∧ (releaseDue s h = true → (actOnHoldoff s).vrd.verdict = .normal ∧ Retimed 1 s (actOnHoldoff s))
      ∧ (releaseDue s h = false →
          (∀ p, (s.pair p).timeout = timeoutOf (s.pair p).desc (s.pair p).est s.vrd.factor) →
          (actOnHoldoff s).vrd.verdict = .holdoff { h with limitPassed := true }
            ∧ Retimed s.vrd.settings.holdoffFactor s (actOnHoldoff s)) := by
  rw [actOnHoldoff_passes hv hdue, passLimit_none hnone]
  have hposted : PostedAt boardSource .holdoffLimit s (limitPassed h s) := (post_posted _ _ _).1
  have hpassed : (limitPassed h s).vrd.verdict = .holdoff { h with limitPassed := true } := rfl
  have hsettle := actOnSettle_factored (limitPassed h s)
  refine ⟨hposted.congr rfl (hsettle.sources _ boardSource_not_pair) rfl, fun hsettled => ?_, fun hsettled htimed => ?_⟩
  · rw [actOnSettle_settled hpassed hsettled]
    exact ⟨by rw [releaseHoldoff_frame], releaseHoldoff_retimed (limitPassed h s)⟩
  · rw [actOnSettle_timed hpassed hsettled htimed]
    exact ⟨by rw [setFactor_vrd]; rfl, setFactor_retimed _ (limitPassed h s)⟩

end

/-! ### CLEAR_BOARD (R139) -/

theorem isEmpty_iff_eq (t : TriggerSet) : t.isEmpty = true ↔ t = { pairs := 0, streams := 0, channelLoss := false } := by
  obtain ⟨pairs, streams, channelLoss⟩ := t
  simp only [TriggerSet.isEmpty, TriggerSet.mk.injEq, Bool.and_eq_true, decide_eq_true_eq, Bool.not_eq_true', and_assoc]

/-- The verdict NORMAL again by a manager's command. -/
def boardCleared (s : State) : State := s.modVrd fun v =>
  { v with verdict := .normal, counters := { v.counters with boardClears := satInc v.counters.boardClears } }

section
variable {s : State}

theorem takenClearBoard_fault (hv : s.vrd.verdict = .fault) : takenClearBoard s
    = if s.vrd.triggers.isEmpty then (boardCleared s, Reply.plain .ok) else (s, Reply.plain .busy) := by
  simp only [takenClearBoard, hv]
  rfl

theorem takenClearBoard_outside (hv : s.vrd.verdict ≠ .fault) : takenClearBoard s = (s, Reply.plain .ok) := by
  cases hverdict : s.vrd.verdict with
  | fault => exact absurd hverdict hv
  | normal => simp only [takenClearBoard, hverdict, done]
  | holdoff h => simp only [takenClearBoard, hverdict, done]

end

theorem answers_setVerdict {l : Manager} {o : SetVerdictOps} {s t : State} {st : Status}
    (h : takenSetVerdict o s = (t, Reply.plain st)) : Answers l (.setVerdict l o) s t st := by
  rw [Answers, ← Reply.plain, ← h]
  rfl

theorem answers_clearBoard {l : Manager} {s t : State} {st : Status}
    (h : takenClearBoard s = (t, Reply.plain st)) : Answers l (.clearBoard l) s t st := by
  rw [Answers, ← Reply.plain, ← h]
  rfl

/-- Settles O57: SET_VERDICT by what channel loss and then the hold-off make of the settings, CLEAR_BOARD by the verdict. -/
theorem verdictIsSetAndCleared : Obligations.VerdictIsSetAndCleared := by
  intro l o s c codes v stored timeouts lossRests
  have hdescribed : describedVerdict o = v := describedVerdict_eq o
  refine ⟨fun hbad => answers_setVerdict (takenSetVerdict_unfit hbad s), fun hfit => ?_, fun hv hstand => ?_,
    fun hv hempty => ?_, fun hv => answers_clearBoard (takenClearBoard_outside hv)⟩
  · have htaken := (takenSetVerdict_fit hfit s).trans (congrArg (fun st => (_, Reply.plain st)) takenStatus_decide_not)
    rw [hdescribed] at htaken
    set u : State := actOnLossSettings s.vrd.settings.fenceOnLoss stored with hu
    obtain ⟨-, -, hsettings, -⟩ : Steady stored u := actOnLossSettings_steady stored _
    obtain ⟨htap, hstreams, hqueue, hecho⟩ : LossOnly stored (actOnHoldoff u) :=
      (actOnLossSettings_only _ stored).verdict (actOnHoldoff_lossKept u).only
    have hkept := actOnHoldoff_lossKept u
    have hfault (hv : u.vrd.verdict = .fault) : actOnHoldoff u = u := actOnHoldoff_outside fun h => by rw [hv]; nofun
    have hrests (h : lossRests) : u = stored := by
      refine actOnLossSettings_rests (s := stored) (fun hstop : s.tap.presence = .stopped => ?_)
        fun hlost : s.tap.presence = .lost => ?_
      · simp only [lossRests, hstop] at h
        exact h
      · simp only [lossRests, hlost] at h
        exact h
    refine ⟨actOnHoldoff u, answers_setVerdict htaken, hkept.settings.trans hsettings, htap, hstreams, hqueue, hecho,
      fun hstop hnz hreached => ?_, fun hlost hwas hnow => ?_, fun hlost hwas hnow hv => ?_, fun hrest hv => ?_,
      fun h hrest hv => ?_⟩
    · obtain ⟨hpresence, hlosses, hjoins⟩ := actOnLossSettings_loses s.vrd.settings.fenceOnLoss
        (lossDue_iff (s := stored) hstop hnz hreached)
      refine ⟨by rw [hkept.only.tap]; exact hpresence, hkept.losses.trans hlosses, fun hfence hnew => ?_⟩
      obtain ⟨htrigger, hv⟩ := hjoins hfence hnew
      rw [hfault hv]
      exact ⟨htrigger, decide_eq_true hv⟩
    · have hjoined : u = joinTrigger .channelLoss stored := by
        rw [hu, hwas]; exact actOnLossSettings_joins hlost hnow
      refine ⟨?_, ?_, fun hnew => ?_⟩
      · rw [hkept.only.tap, hjoined, (joinTrigger_only stored _).tap]
        exact hlost
      · rw [hkept.trigger, hjoined]
        exact joinTrigger_loss stored
      · have hv : u.vrd.verdict = .fault := by rw [hjoined]; exact joinTrigger_verdict stored .channelLoss hnew
        rw [hfault hv]
        exact decide_eq_true hv
    · have hleft : u = leaveTrigger .channelLoss stored := by
        rw [hu, hwas]; exact actOnLossSettings_leaves hlost hnow
      rw [hfault (by rw [hleft]; exact hv), hleft]
      rfl
    · rw [hrests hrest]
      exact actOnHoldoff_outside hv
    · intro passing settled
      rw [hrests hrest]
      have hv : stored.vrd.verdict = .holdoff h := hv
      have hpassing : limitDue stored h = true ↔ passing := limitDue_iff
      have hsettled : releaseDue stored h = true ↔ settled := releaseDue_iff
      refine ⟨fun hends => ?_, fun hnz hgoes hunsettled htimed => ?_, fun hpasses => ?_⟩
      · rw [actOnHoldoff_releases hv (hends.imp_right fun ⟨hgoes, hsettles⟩ =>
          ⟨Bool.eq_false_iff.mpr (mt hpassing.mp hgoes), hsettled.mpr hsettles⟩)]
        exact ⟨releaseHoldoff_frame stored, releaseHoldoff_retimed stored⟩
      · obtain ⟨htimed, -⟩ := htimed
        rw [actOnHoldoff_waits hv hnz (Bool.eq_false_iff.mpr (mt hpassing.mp hgoes)),
          actOnSettle_timed hv (Bool.eq_false_iff.mpr (mt hsettled.mp hunsettled)) htimed]
        exact ⟨setFactor_eq _ stored, setFactor_retimed _ stored⟩
      · obtain ⟨hcount, hfailed⟩ := actOnHoldoff_passing hv (hpassing.mpr hpasses)
        refine ⟨hcount, hfailed, fun hnone => ?_⟩
        obtain ⟨hposted, hreleases, hgoesOn⟩ := actOnHoldoff_passesAlone hv (hpassing.mpr hpasses) hnone
        refine ⟨hposted.congr rfl rfl rfl, fun hsettles => hreleases (hsettled.mpr hsettles),
          fun hunsettled htimed => ?_⟩
        obtain ⟨htimed, -⟩ := htimed
        exact hgoesOn (Bool.eq_false_iff.mpr (mt hsettled.mp hunsettled)) htimed
  · have hbusy : ¬ s.vrd.triggers.isEmpty = true := fun h => hstand ((isEmpty_iff_eq _).mp h)
    exact answers_clearBoard ((takenClearBoard_fault hv).trans (if_neg hbusy))
  · exact ⟨boardCleared s,
      answers_clearBoard ((takenClearBoard_fault hv).trans (if_pos ((isEmpty_iff_eq _).mpr hempty))), rfl, rfl, rfl⟩

end Sys2Proof.Machine
end

/-! ## The findings of the sources, and the links, under the shared operations -/
section

namespace Sys2Proof.Machine

/-! ### One source, and the part (R143, R144) -/

/-- The findings of a source are present together, with pending set, or cleared together (R143). -/
def Source.Sound (x : Source) : Prop :=
  (x.count = 0 ∧ x.causes = 0 ∧ x.firstStamp = none ∧ x.lastStamp = none)
    ∨ (x.count ≠ 0 ∧ x.causes ≠ 0 ∧ x.firstStamp.isSome = true ∧ x.lastStamp.isSome = true ∧ x.pending = true)

theorem sourcesHold_iff {s : State} : SourcesHold s ↔ ∀ i, (s.source i).Sound := Iff.rfl

theorem satInc8_ne_zero (c : BitVec 8) : satInc8 c ≠ 0 := by
  intro h
  have := satInc8_toNat c
  rw [h] at this
  change 0 = _ at this
  omega

theorem Cause.mask_ne_zero (c : Cause) : c.mask ≠ 0 := by
  cases c <;> decide

/-- A posting sets every finding, whatever the source held (R144). -/
theorem posted_sound (c : Cause) (now : Stamp) (x : Source) : (x.posted c now).Sound := by
  refine .inr ⟨satInc8_ne_zero _, fun h => ?_, rfl, rfl, rfl⟩
  obtain ⟨-, hmask⟩ := BitVec.or_eq_zero_iff.mp h
  exact c.mask_ne_zero hmask

/-- An acknowledgement clears every finding (R152). -/
theorem acknowledged_sound (still : Bool) (x : Source) : (x.acknowledged still).Sound := .inl ⟨rfl, rfl, rfl, rfl⟩

/-- What every operation of an owner leaves: both links as they were, and the findings of each source together if they were. -/
def FindingsKept (s t : State) : Prop :=
  t.linkA = s.linkA ∧ t.linkB = s.linkB ∧ ∀ i, (s.source i).Sound → (t.source i).Sound

namespace FindingsKept

theorem refl (s : State) : FindingsKept s s := ⟨rfl, rfl, fun _ => id⟩

theorem trans {s t u : State} (h : FindingsKept s t) (k : FindingsKept t u) : FindingsKept s u := by
  obtain ⟨hA, hB, hsound⟩ := h
  obtain ⟨kA, kB, ksound⟩ := k
  exact ⟨kA.trans hA, kB.trans hB, fun i => ksound i ∘ hsound i⟩

/-- The operation done last first, as a meaning writes it. -/
theorem comp {s t u : State} (k : FindingsKept t u) (h : FindingsKept s t) : FindingsKept s u := h.trans k

theorem ite {s t u : State} {c : Prop} [Decidable c] (h : FindingsKept s t) (k : FindingsKept s u) :
    FindingsKept s (if c then t else u) := by
  split
  · exact h
  · exact k

theorem foldl {γ : Type} {f : State → γ → State} (hf : ∀ t a, FindingsKept t (f t a)) (l : List γ) (s : State) :
    FindingsKept s (l.foldl f s) :=
  foldl_keeps (P := FindingsKept s) (fun t a h => h.trans (hf t a)) l (refl s)

theorem modSource {s : State} {i : SourceIx} {f : Source → Source} (h : (s.source i).Sound → (f (s.source i)).Sound) :
    FindingsKept s (s.modSource i f) :=
  ⟨rfl, rfl, fun j => by
    rw [modSource_place]
    split
    · next e => subst e; exact h
    · exact id⟩

theorem post (i : SourceIx) (c : Cause) (s : State) : FindingsKept s (post i c s) := modSource fun _ => posted_sound _ _ _

theorem modTap (f : Tap → Tap) (s : State) : FindingsKept s (s.modTap f) := .refl s

/-- The pairs alone have changed. -/
theorem windowOnly {p : PairIx} {s t : State} (h : WindowOnly p s t) : FindingsKept s t := by rw [h.frame]; exact .refl s

end FindingsKept

/-! ### The heads of the lists, and the timeouts (R62, R63, R80 to R83) -/

section
variable (p : PairIx) (s : State)

theorem pairedEvent_findings : FindingsKept s (pairedEvent p s) := .windowOnly (pairedEvent_windowOnly s p)

theorem adverseEvent_findings : FindingsKept s (adverseEvent p s) := .windowOnly (adverseEvent_windowOnly s p)

theorem expiryEvent_findings : FindingsKept s (expiryEvent p s) := .windowOnly (expiryEvent_windowOnly s p)

theorem expiryFinding_findings (e : Entry) : FindingsKept s (expiryFinding p s e) :=
  (expiryEvent_findings p _).comp (.ite (.refl s) (.post _ _ s))

theorem lossFinding_findings (e : LateEntry) : FindingsKept s (lossFinding p s e) :=
  (expiryEvent_findings p _).comp (.post _ _ s)

theorem settleDraining_findings : FindingsKept s (settleDraining p s) := .ite (.refl s) (.refl s)

theorem examineOpen_findings : FindingsKept s (examineOpen p s) :=
  .ite (.comp (.foldl (expiryFinding_findings p) _ _) (.refl s)) (.refl s)

theorem examineLate_findings : FindingsKept s (examineLate p s) :=
  .ite ((settleDraining_findings p _).comp (.comp (.foldl (lossFinding_findings p) _ _) (.refl s))) (.refl s)

theorem recomputeT_findings : FindingsKept s (recomputeT p s) :=
  .ite (.refl s) ((examineLate_findings p _).comp ((examineOpen_findings p _).comp (.refl s)))

theorem setFactor_findings (f : Nat) : FindingsKept s (setFactor f s) :=
  .comp (.foldl (fun t r => recomputeT_findings r t) allPairs _) (.refl s)

theorem takeSample_findings (l : Nat) : FindingsKept s (takeSample p l s) := (recomputeT_findings p _).comp (.refl s)

end

/-! ### The Verdict Unit and the Health Evaluator (sections 6 and 8) -/

section
variable (p : PairIx) (m : Trigger) (s : State)

theorem joinInFault_findings : FindingsKept s (joinInFault m s) := .ite (.refl s) (.refl s)

theorem markFailed_findings : FindingsKept s (markFailed p s) := .comp (.post _ _ _) (.refl s)

theorem failInFault_findings : FindingsKept s (failInFault p s) :=
  .ite ((joinInFault_findings _ _).comp (markFailed_findings p s)) (markFailed_findings p s)

theorem promoteInFault_findings : FindingsKept s (promoteInFault s) :=
  .foldl (fun t r => .ite (failInFault_findings r t) (.refl t)) allPairs s

theorem enterFault_findings : FindingsKept s (enterFault m s) := by
  have hentered : FindingsKept s (faultEntered m s) := .comp (.post _ _ _) (.refl s)
  unfold enterFault; dsimp only; split
  · exact (promoteInFault_findings _).comp ((setFactor_findings _ 1).comp hentered)
  · exact hentered

theorem joinTrigger_findings : FindingsKept s (joinTrigger m s) :=
  .ite (.refl s) (.ite (joinInFault_findings m s) (enterFault_findings m s))

theorem failPair_findings : FindingsKept s (failPair p s) :=
  .ite ((joinTrigger_findings _ _).comp (markFailed_findings p s)) (markFailed_findings p s)

theorem promotePending_findings : FindingsKept s (promotePending s) :=
  .foldl (fun t r => .ite (failPair_findings r t) (.refl t)) (promotionOrder s) s

theorem passLimit_findings (h : HoldOff) : FindingsKept s (passLimit h s) :=
  (promotePending_findings _).comp (.comp (.post _ _ _) (.refl s))

theorem releaseHoldoff_findings : FindingsKept s (releaseHoldoff s) := (setFactor_findings _ 1).comp (.refl s)

theorem enterHoldoff_findings : FindingsKept s (enterHoldoff s) :=
  (setFactor_findings _ _).comp (.comp (.post _ _ _) (.refl s))

theorem enterLost_findings : FindingsKept s (enterLost s) := by
  have hcounted : FindingsKept s (lossCounted s) := .comp (.post _ _ _) (.refl s)
  rw [enterLost_eq]
  exact .ite ((joinTrigger_findings _ _).comp hcounted) hcounted

theorem suspectSample_findings : FindingsKept s (suspectSample p s) := by
  have hheld (t : State) : FindingsKept t (holdPromotion p t) := .comp (.post _ _ _) (.refl t)
  exact .ite (.ite (.refl s) (failPair_findings p s))
    (.ite (.ite ((hheld _).comp (.refl s)) ((failPair_findings p _).comp (.refl s))) (.refl s))

theorem judgeHealth_findings : FindingsKept s (judgeHealth p s) := by
  unfold judgeHealth; dsimp only; split
  · exact .refl s
  · exact .refl s
  · exact .ite (suspectSample_findings p s) (.comp (.post _ _ _) (.refl s))

theorem endWindow_findings : FindingsKept s (endWindow p s) := by
  unfold endWindow; split
  · exact .refl s
  · have hjudged (t : State) (c : WindowClass) : FindingsKept t (judgeWindow p c t) :=
      .ite ((judgeHealth_findings p _).comp (.refl t)) (.refl t)
    exact .comp (.refl _) ((hjudged _ _).comp (.refl s))

theorem overrunQuiesce_findings : FindingsKept s (overrunQuiesce p s) := .comp (.refl _) (.post _ _ s)

theorem missPulse_findings (n : StreamIx) : FindingsKept s (missPulse n s) := by
  have hmissed (f : Stream → Stream) : FindingsKept s ((post (streamSource n) .pulseMissed s).modStream n f) :=
    .comp (.refl _) (.post _ _ s)
  exact .ite ((joinTrigger_findings _ _).comp (hmissed _)) (hmissed _)

theorem pulseRecord_findings (n : StreamIx) (commit : Clock) : FindingsKept s (pulseRecord n commit s) := by
  unfold pulseRecord; dsimp only
  exact .comp (.refl _) (.ite (.post _ _ s) (.refl s))

end

/-! ### The Echo Checker and the Probe Engine (section 7) -/

section
variable (s : State)

theorem handOver_findings : FindingsKept s (handOver s) := by
  unfold handOver; split
  · exact .ite (.refl s) (.refl s)
  · exact .refl s

theorem giveUpLine_findings : FindingsKept s (giveUpLine s) := by
  unfold giveUpLine; split <;> exact .refl s

theorem giveUpIf_findings (k : Purpose) : FindingsKept s (giveUpIf k s) := .ite (giveUpLine_findings s) (.refl s)

theorem retireEntry_findings (e : EchoEntry) : FindingsKept s (retireEntry e s) :=
  .ite ((giveUpIf_findings _ _).comp (.refl s)) (.refl s)

/-- An entry retired, and its outcome counted. -/
theorem retireCounted_findings (e : EchoEntry) (f : EchoCounters → EchoCounters) :
    FindingsKept s (countEcho f (retireEntry e s)) := .comp (.refl _) (retireEntry_findings s e)

theorem echoFinding_findings (p : PairIx) (c : Cause) : FindingsKept s (echoFinding p c s) :=
  (adverseEvent_findings p _).comp (.post _ _ s)

theorem compareEntry_findings (e : EchoEntry) : FindingsKept s (compareEntry e s) :=
  .ite (.ite (retireCounted_findings s e _) ((echoFinding_findings _ _ _).comp (retireCounted_findings s e _))) (.refl s)

theorem entryRead_findings (e : EchoEntry) (i : Nat) (d : LineData) : FindingsKept s (entryRead e i d s) :=
  .ite ((compareEntry_findings _ _).comp (.refl s)) (.refl s)

theorem lineRead_findings (k : SlotKey) (i : Nat) (d : LineData) : FindingsKept s (lineRead k i d s) := by
  unfold lineRead; split
  · exact .refl s
  · exact entryRead_findings s _ i d

theorem overtake_findings (k : SlotKey) : FindingsKept s (overtake k s) := by
  unfold overtake; split
  · exact .refl s
  · exact retireCounted_findings s _ _

theorem dropOldest_findings : FindingsKept s (dropOldest s) := by
  unfold dropOldest; split
  · exact .refl s
  · exact .ite (.refl s) (.comp (.post _ _ _) (retireCounted_findings s _ _))

theorem appendEcho_findings (p : PairIx) (r : Record) : FindingsKept s (appendEcho p r s) :=
  .ite (.refl s) (.comp (.refl _) (dropOldest_findings s))

theorem endSingle_findings (o : SingleOutcome) : FindingsKept s (endSingle o s) := by
  unfold endSingle; split <;> exact .refl s

theorem takeLine_findings (l : LineInHand) : FindingsKept s (takeLine l s) := (handOver_findings _).comp (.refl s)

theorem takeEntryLine_findings : FindingsKept s (takeEntryLine s) := by
  unfold takeEntryLine; split
  · exact .refl s
  · split
    · exact .refl s
    · exact takeLine_findings s _

theorem takeQueueHead_findings : FindingsKept s (takeQueueHead s) := by
  unfold takeQueueHead; split <;> exact .refl s

theorem prbTake_findings : FindingsKept s (prbTake s) := by
  unfold prbTake
  refine .ite (.refl s) ?_
  split
  · exact takeLine_findings s _
  · exact .ite (takeEntryLine_findings s) ((takeEntryLine_findings _).comp (takeQueueHead_findings s))

theorem starveLine_findings (l : LineInHand) : FindingsKept s (starveLine l s) := by
  unfold starveLine; split
  · exact endSingle_findings s _
  · split
    · exact .refl s
    · exact (echoFinding_findings _ _ _).comp (retireCounted_findings s _ _)

theorem starveInHand_findings : FindingsKept s (starveInHand s) := by
  unfold starveInHand; split
  · exact (starveLine_findings _ _).comp (giveUpLine_findings s)
  · exact .refl s

theorem abortByClock_findings : FindingsKept s (abortByClock s) := by
  unfold abortByClock; dsimp only
  refine .ite ?_ (.refl s)
  split
  · exact .refl s
  · exact (starveLine_findings _ _).comp (.refl s)
  · exact .ite (.refl s) ((starveLine_findings _ _).comp (.refl s))

theorem lineOutcome_findings (v : Bool) (d : LineData) : FindingsKept s (lineOutcome v d s) := by
  unfold lineOutcome; split
  · dsimp only
    refine .ite (.refl s) ?_
    split
    · exact (endSingle_findings _ _).comp (.refl s)
    · refine .ite (.refl s) ?_
      split
      · exact .refl s
      · exact (entryRead_findings _ _ _ _).comp (.refl s)
  · exact .refl s

theorem judgeOverdue_findings (e : EchoEntry) : FindingsKept s (judgeOverdue e s) :=
  (echoFinding_findings _ _ _).comp (.ite (.refl s) ((retireEntry_findings _ _).comp (.refl s)))

theorem switchProbeOff_findings : FindingsKept s (switchProbeOff s) := by
  have hwatching := giveUpIf_findings s .currentEntry
  unfold switchProbeOff; dsimp only; split
  · exact (endSingle_findings _ _).comp ((giveUpIf_findings _ _).comp hwatching)
  · exact hwatching

theorem withdrawStream_findings (n : StreamIx) : FindingsKept s (withdrawStream n s) :=
  .foldl (fun t e => retireCounted_findings t e _) _ s

theorem flushEcho_findings : FindingsKept s (flushEcho s) := (endSingle_findings _ _).comp (.refl s)

end

/-! ### The Record Assembler (section 3) -/

section
variable (n : StreamIx) (s : State)

theorem dropRecord_findings (c : Cause) : FindingsKept s (dropRecord n c s) := .comp (.post _ _ _) (.refl s)

theorem acceptRecord_findings (r : Record) (q : SeqState) : FindingsKept s (acceptRecord r q s) :=
  .comp (.ite (.refl _) (.comp (.post _ _ _) (.refl _))) (.refl s)

theorem countGap_findings (g : BitVec 32) : FindingsKept s (countGap n g s) := .comp (.post _ _ _) (.refl s)

theorem commitRecord_findings (a : Assembly) (h : Header) : FindingsKept s (commitRecord n a h s) := by
  cases hc : dropCause (s.stream n).desc a.slot h with
  | some c => rw [commitRecord_drops hc]; exact dropRecord_findings n s c
  | none =>
    rw [commitRecord_passes hc]
    split
    · exact dropRecord_findings n s _
    · exact acceptRecord_findings s _ _
    · exact (acceptRecord_findings _ _ _).comp (countGap_findings n s _)

theorem asmWrite_findings (slot : Nat) (i : Fin 8) (data : LineData) (mask : ByteMask) :
    FindingsKept s (asmWrite n slot i data mask s) := by
  unfold asmWrite; dsimp only
  refine .ite ?_ (.refl s)
  split
  · exact .refl s
  · exact .comp (.post _ _ _) (.refl s)
  · exact .comp (.post _ _ _) (.refl s)
  · exact (commitRecord_findings n _ _ _).comp (.refl s)

end

/-! ### The Correlator (section 4) -/

section
variable (p : PairIx) (r : Record) (s : State)

theorem insertRequest_findings : FindingsKept s (insertRequest p r s) := by
  have hstopped (c : Cause) : FindingsKept s (addUntracked p 1 (post (pairSource p) c s)) := .comp (.refl _) (.post _ _ s)
  exact .ite (hstopped _) (.ite (hstopped _) (.ite ((examineOpen_findings p _).comp (.refl s)) (.refl s)))

theorem handleRequest_findings : FindingsKept s (handleRequest p r s) := by
  have hunseen : FindingsKept s (countUnseen p r s) := by
    rw [countUnseen_eq]; exact .refl s
  exact .ite (.comp (.refl _) hunseen) (.ite (.comp (.refl _) hunseen) ((insertRequest_findings p r _).comp hunseen))

/-- The drain ended if the freed entry was the last, the new head examined, and the sample taken (R47, R83). -/
theorem completed_findings (l : Nat) {c : Bool} {t : State} {f : State → State} (hf : ∀ u, FindingsKept u (f u))
    (h : FindingsKept s t) : FindingsKept s (takeSample p l (if c then f (settleDraining p t) else settleDraining p t)) := by
  have hdrained := (settleDraining_findings p t).comp h
  exact (takeSample_findings p _ l).comp (.ite ((hf _).comp hdrained) hdrained)

theorem completeOpen_findings (e : Entry) : FindingsKept s (completeOpen p r e s) :=
  completed_findings p s _ (examineOpen_findings p) ((pairedEvent_findings p _).comp (.refl s))

theorem completeLate_findings (e : LateEntry) : FindingsKept s (completeLate p r e s) :=
  completed_findings p s _ (examineLate_findings p) ((pairedEvent_findings p _).comp (.comp (.post _ _ _) (.refl s)))

theorem holdOpen_findings (e : Entry) : FindingsKept s (holdOpen p r e s) := by
  have hmoved (f : Pair → Pair) : FindingsKept s (pairedEvent p (s.modPair p f)) :=
    (pairedEvent_findings p _).comp (.refl s)
  exact .ite (.ite ((examineOpen_findings p _).comp (hmoved _)) (hmoved _)) (.post _ _ s)

theorem holdLate_findings (e : LateEntry) : FindingsKept s (holdLate p r e s) := by
  have hmoved (f : Pair → Pair) : FindingsKept s (pairedEvent p (s.modPair p f)) :=
    (pairedEvent_findings p _).comp (.refl s)
  have hexamined (f : Pair → Pair) := FindingsKept.ite (c := (s.pair p).openList = [])
    ((examineOpen_findings p _).comp (hmoved f)) (hmoved f)
  exact .ite (.ite ((examineLate_findings p _).comp (hexamined _)) (hexamined _)) (.post _ _ s)

theorem orphan_findings : FindingsKept s (orphan p s) :=
  (adverseEvent_findings p _).comp (.comp (.post _ _ _) (.refl s))

theorem matchCompletion_findings : FindingsKept s (matchCompletion p r s) := by
  unfold matchCompletion; split
  · exact .ite (holdOpen_findings p r s _) (completeOpen_findings p r s _)
  · split
    · exact .ite (holdLate_findings p r s _) (completeLate_findings p r s _)
    · exact orphan_findings p s

theorem handleCompletion_findings : FindingsKept s (handleCompletion p r s) := by
  have htaint : FindingsKept s (taintWindow p r s) := .ite (.refl s) (.refl s)
  unfold handleCompletion; dsimp only; split
  · have hmatched := (matchCompletion_findings p r _).comp htaint
    exact .ite ((appendEcho_findings _ p r).comp hmatched) hmatched
  · exact .comp (.ite (.refl _) (.refl _)) htaint
  · exact .comp (.ite (.refl _) (.refl _)) htaint
  · exact .refl s

theorem handleRecord_findings : FindingsKept s (handleRecord r s) := by
  unfold handleRecord; split
  · exact pulseRecord_findings s _ _
  · split
    · exact .refl s
    · exact .ite (handleRequest_findings _ r s) (.refl s)
  · split
    · exact .refl s
    · exact .ite (handleCompletion_findings _ r s) (.refl s)
  · exact .refl s

theorem pickup_findings (n : StreamIx) (slot : Nat) : FindingsKept s (pickup n slot s) := by
  unfold pickup; split
  · exact .refl s
  · exact .ite (.refl s) (.refl s)

end

end Sys2Proof.Machine
end

/-! ## The intake of a link agrees with its selection and its frame -/
section

namespace Sys2Proof.Machine

/-! ### The intake of a link that is not DESELECTED (R158, R159) -/

namespace Link.holds

/-- The invariant of a link reads the selection and the intake alone. -/
theorem congr {l k : Link} (h : l.holds) (hsel : k.selection = l.selection) (hin : k.intake = l.intake) : k.holds := by
  unfold Link.holds
  rwa [hsel, hin]

/-- A link in any state of the intake but DESELECTED and REPLYING is selected. -/
theorem selected {l : Link} {i : Intake} (h : l.holds) (hin : l.intake = i) (hd : i ≠ .deselected := by nofun)
    (hr : ∀ k, i ≠ .replying k := by nofun) : l.selection ≠ .deselected := fun hsel => by
  obtain ⟨hidle, -⟩ := h
  rcases hidle hsel with e | ⟨k, e⟩
  · exact hd (hin.symm.trans e)
  · exact hr k (hin.symm.trans e)

end Link.holds

/-- A selected link whose intake is in no frame. -/
theorem holds_of_selected {l : Link} (hsel : l.selection ≠ .deselected) (hf : ∀ f, l.intake ≠ .receiving f) : l.holds :=
  ⟨fun h => absurd h hsel, fun f h => absurd h (hf f)⟩

/-- A selected link in a frame that is as R159 gives it. -/
theorem holds_of_receiving {l : Link} {f : Frame} (hsel : l.selection ≠ .deselected) (hin : l.intake = .receiving f)
    (hf : f.holds) : l.holds :=
  ⟨fun h => absurd h hsel, fun g h => by rw [hin] at h; cases h; exact hf⟩

/-! ### Frames (R159) -/

theorem sumBytes_append (l : List Byte) (b : Byte) : sumBytes (l ++ [b]) = sumBytes l + b := by
  simp [sumBytes]

/-- A LEN in its range begins a frame (R159). -/
theorem start_holds {v : Byte} (hlo : 2 ≤ v.toNat) (hhi : v.toNat ≤ 60) : (Frame.start v).holds :=
  ⟨hlo, hhi, Nat.lt_of_lt_of_le Nat.zero_lt_two hlo, rfl, by simp [Frame.start, sumBytes]⟩

/-- A character that is not the last of its frame joins it (R159). -/
theorem extend_holds {f : Frame} (h : f.holds) (c : RxChar) (hmore : (f.extend c).count ≠ (f.extend c).len) :
    (f.extend c).holds := by
  obtain ⟨hlo, hhi, hcount, hlength, hsum⟩ := h
  refine ⟨hlo, hhi, Nat.lt_of_le_of_ne hcount hmore, ?_, ?_⟩
  · simp [Frame.extend, hlength]
  · simp only [Frame.extend, sumBytes_append, hsum, BitVec.add_assoc]

/-! ### Characters taken by the intake (R157 to R163) -/

section
variable (m : Manager) (stn : BitVec 6)

/-- The intake that the selection gives: DESELECTED, waiting, or busy with a reply. -/
theorem answered_holds (r : Reply) (ov : Bool) (l : Link) : (l.answered r ov).holds := by
  cases hsel : l.selection with
  | deselected => exact ⟨fun _ => .inl (by simp [Link.answered, hsel]), fun f h => by simp [Link.answered, hsel] at h⟩
  | selected =>
    exact holds_of_selected (by simp [Link.answered, hsel]) fun f => by simp [Link.answered, hsel]
  | broadcast =>
    exact holds_of_selected (by simp [Link.answered, hsel]) fun f => by cases ov <;> simp [Link.answered, hsel]

theorem beginReply_holds {l : Link} (h : l.holds) (r : Reply) : (l.beginReply r).holds := by
  unfold Link.beginReply
  split
  · exact h.congr rfl rfl
  · exact h

theorem frameWhole_holds {l : Link} (hsel : l.selection ≠ .deselected) (f : Frame) : (l.frameWhole m f).holds := by
  unfold Link.frameWhole
  dsimp only
  split
  · exact holds_of_selected hsel nofun
  · exact beginReply_holds (answered_holds _ _ _) _
  · exact beginReply_holds (answered_holds _ _ _) _

theorem frameEnded_holds {l : Link} (hsel : l.selection ≠ .deselected) (f : Frame) : (l.frameEnded m f).holds := by
  unfold Link.frameEnded
  split
  · exact holds_of_selected hsel nofun
  split
  · exact holds_of_selected hsel nofun
  · exact frameWhole_holds m hsel f

theorem takeData_holds {l : Link} (h : l.holds) (c : RxChar) : (l.takeData m c).holds := by
  unfold Link.takeData
  split
  · next hin =>
    have hsel := h.selected hin
    split
    · exact holds_of_selected hsel nofun
    split
    · next hlen =>
      obtain ⟨hlo, hhi⟩ := hlen
      exact holds_of_receiving hsel rfl (start_holds hlo hhi)
    · exact holds_of_selected hsel nofun
  · next f hin =>
    have hsel := h.selected hin
    obtain ⟨-, hframe⟩ := h
    dsimp only
    split
    · exact frameEnded_holds m hsel _
    · next hmore => exact holds_of_receiving hsel rfl (extend_holds (hframe f hin) c hmore)
  all_goals exact h

/-- An address character sets the selection and the intake that goes with it (R158). -/
theorem takeAddress_holds (v : Byte) (l : Link) : (l.takeAddress stn v).holds := by
  unfold Link.takeAddress
  cases hsel : selectionOf stn v with
  | deselected => exact ⟨fun _ => .inl rfl, nofun⟩
  | selected => exact holds_of_selected nofun nofun
  | broadcast => exact holds_of_selected nofun nofun

theorem take_holds {l : Link} (h : l.holds) (c : RxChar) : (l.take m stn c).holds := by
  have htimed : ({ l with lastTaken := c.time } : Link).holds := h.congr rfl rfl
  unfold Link.take
  dsimp only
  split
  · exact takeAddress_holds stn _ _
  · exact takeData_holds m htimed c

theorem drain_holds (cs : List RxChar) {l : Link} (h : l.holds) : (Link.drain m stn cs l).holds := by
  induction cs generalizing l with
  | nil => exact h.congr rfl rfl
  | cons c cs ih =>
    rw [Link.drain]
    split
    · exact h.congr rfl rfl
    · exact ih (take_holds m stn h c)

theorem overrun_holds {l : Link} (h : l.holds) : l.overrun.holds := by
  unfold Link.overrun
  split
  · next hin => exact holds_of_selected (h.selected hin) nofun
  · next hin => exact holds_of_selected (h.selected hin) nofun
  · next hin => exact holds_of_selected (h.selected hin) nofun
  all_goals exact h

theorem receive_holds (now : Clock) (ch : LinkChar) {l : Link} (h : l.holds) : (l.receive m stn now ch).holds := by
  unfold Link.receive
  dsimp only
  split
  · exact h
  split
  · exact overrun_holds h
  · exact drain_holds m stn _ h

/-! ### The answer of an owner, and the ends of frames and replies (R160 to R164, R168) -/

theorem leaveHanding_holds (r : Reply) (ov : Bool) (l : Link) : (l.leaveHanding m stn r ov).holds :=
  beginReply_holds (drain_holds m stn _ (answered_holds _ _ _)) _

theorem deliver_holds (c : Instr) (r : Reply) {l : Link} (h : l.holds) : (l.deliver m stn c r).holds := by
  unfold Link.deliver
  split
  · split
    · exact leaveHanding_holds m stn r _ l
    · exact h.congr rfl rfl
  · exact h.congr rfl rfl

end

theorem gapTimeout_holds {l : Link} (h : l.holds) : l.gapTimeout.holds := by
  unfold Link.gapTimeout
  split
  · next hin => exact holds_of_selected (h.selected hin) nofun
  · next hin => exact holds_of_selected (h.selected hin) nofun
  all_goals exact h

theorem replyDone_holds {l : Link} (h : l.holds) : l.replyDone.holds := by
  unfold Link.replyDone
  split
  · next skip hin =>
    cases hsel : l.selection with
    | deselected => exact ⟨fun _ => .inl rfl, nofun⟩
    | selected => exact holds_of_selected nofun fun f => by cases skip <;> nofun
    | broadcast => exact holds_of_selected nofun fun f => by cases skip <;> nofun
  all_goals exact h

theorem resetByPart_holds (l : Link) : l.resetByPart.holds := ⟨fun _ => .inl rfl, nofun⟩

theorem resetCarrying_holds (c : Instr) (l : Link) : (l.resetCarrying c).holds := by
  unfold Link.resetCarrying
  dsimp only
  split
  · next k ov hin =>
    split
    · have hcounted : (if ov then ({ l.resetByPart with lastReply := some (Reply.plain .ok) } : Link).countError .overrun
          else { l.resetByPart with lastReply := some (Reply.plain .ok) }).holds := by
        split <;> exact (resetByPart_holds l).congr rfl rfl
      split
      · exact ⟨fun _ => .inr ⟨false, rfl⟩, nofun⟩
      · exact hcounted.congr rfl rfl
    · exact (resetByPart_holds l).congr rfl rfl
  · exact (resetByPart_holds l).congr rfl rfl

end Sys2Proof.Machine
end

/-! ## Every step keeps the findings of the sources, and the links -/
section

namespace Sys2Proof.Machine

/-! ### What a command keeps of the sources and the links -/

/-- The invariants of the sources and of the links that hold in `s` hold in `t`. -/
def ReportsKept (s t : State) : Prop := (SourcesHold s → SourcesHold t) ∧ (LinksHold s → LinksHold t)

namespace ReportsKept

theorem refl (s : State) : ReportsKept s s := ⟨id, id⟩

theorem trans {s t u : State} (h : ReportsKept s t) (k : ReportsKept t u) : ReportsKept s u :=
  ⟨k.1 ∘ h.1, k.2 ∘ h.2⟩

/-- A change of one link that leaves it in agreement with its selection and its frame. -/
theorem modLink {s : State} {m : Manager} {f : Link → Link} (h : (s.link m).holds → (f (s.link m)).holds) :
    ReportsKept s (s.modLink m f) := by
  cases m with
  | A => exact ⟨id, And.imp_left h⟩
  | B => exact ⟨id, And.imp_right h⟩

end ReportsKept

theorem FindingsKept.reports {s t : State} (h : FindingsKept s t) : ReportsKept s t := by
  obtain ⟨hA, hB, hsound⟩ := h
  refine ⟨fun hs => sourcesHold_iff.mpr fun i => hsound i (sourcesHold_iff.mp hs i), fun hs => ?_⟩
  rw [LinksHold, hA, hB]
  exact hs

/-- The answer of an owner reaches its link alone. -/
theorem answer_reports (m : Manager) (c : Instr) {s : State} {out : State × Reply} (h : FindingsKept s out.1) :
    ReportsKept s (answer m c s out) := by
  obtain ⟨-, e⟩ | ⟨-, e⟩ := answer_cases m c s out
  · rw [e]; exact .modLink fun hl => hl.congr rfl rfl
  · rw [e]; exact h.reports.trans (.modLink (deliver_holds m _ c _))

/-! ### The channel (section 2) -/

section
variable (s : State)

theorem presentWrite_findings (a : LineAddr) (data : LineData) (mask : ByteMask) :
    FindingsKept s (presentWrite a data mask s) := by
  unfold presentWrite; dsimp only; split
  · exact .refl s
  · exact (asmWrite_findings _ _ _ _ _ _).comp (.ite ((overtake_findings _ _).comp (.refl s)) (.refl s))

theorem presentRead_findings (a : LineAddr) (data : LineData) : FindingsKept s (presentRead a data s) := by
  unfold presentRead; dsimp only; split
  · exact .refl s
  · split
    · exact .ite ((pickup_findings _ _ _).comp (.refl s)) (.refl s)
    · exact (lineRead_findings _ _ _ _).comp (.refl s)
    · exact .refl s

theorem startDiscontinuity_findings : FindingsKept s (startDiscontinuity s) := .comp (.refl _) (flushEcho_findings s)

theorem endDiscontinuity_findings : FindingsKept s (endDiscontinuity s) := .refl s

theorem columnCommand_findings (b : BankAddr) (column : BitVec 10) (op : ColumnOp) (length : BurstLength) (auto : Bool) :
    Leads (FindingsKept s) (exec (.columnCommand b column op length auto) s) := by
  rw [exec_columnCommand]; exact .next (.refl s)

theorem writeDataComplete_findings (which : Nat) (data : LineData) (mask : ByteMask) (dur : Bool) :
    Leads (FindingsKept s) (execWriteDataComplete which data mask dur s) := by
  unfold execWriteDataComplete; split
  · exact .next (.refl s)
  · exact .next (.ite ((prbTake_findings _).comp ((presentWrite_findings _ _ _ _).comp (.refl s))) (.refl s))

theorem readDataComplete_findings (which : Nat) (data : LineData) (dur : Bool) :
    Leads (FindingsKept s) (execReadDataComplete which data dur s) := by
  unfold execReadDataComplete; split
  · exact .next (.refl s)
  · exact .next
      (.ite (.ite ((prbTake_findings _).comp ((presentRead_findings _ _ _).comp (.refl s))) (.refl s)) (.refl s))

theorem probeGrant_findings : Leads (FindingsKept s) (execProbeGrant s) := by
  unfold execProbeGrant; dsimp only; split <;> exact .next (.refl s)

theorem probeDataReturn_findings (data : LineData) (abandoned : Bool) :
    Leads (FindingsKept s) (execProbeDataReturn data abandoned s) := by
  unfold execProbeDataReturn; split
  · exact .next ((prbTake_findings _).comp ((lineOutcome_findings _ _ _).comp (.refl s)))
  · exact .next (.refl s)

theorem probeGrantReleased_findings : Leads (FindingsKept s) (exec .probeGrantReleased s) := by
  by_cases hphase : s.tap.port.phase = .releasing
  · cases hline : s.tap.port.line with
    | some a => rw [exec_probeGrantReleased_held hphase hline]; exact .next (.refl s)
    | none =>
      rw [exec_probeGrantReleased_free hphase hline]
      exact .next ((prbTake_findings _).comp ((handOver_findings _).comp (.refl s)))
  · rw [exec_probeGrantReleased_other hphase]; exact .next (.refl s)

theorem clockStop_findings : Leads (FindingsKept s) (execClockStop s) := by
  unfold execClockStop; split
  · exact .next ((prbTake_findings _).comp ((abortByClock_findings _).comp (.refl s)))
  · exact .next (.refl s)

theorem returnAfterLoss_findings : Leads (FindingsKept s) (execReturnAfterLoss s) := by
  unfold execReturnAfterLoss; split
  · exact .next (.ite (.refl s) ((endDiscontinuity_findings _).comp ((startDiscontinuity_findings _).comp (.refl s))))
  · exact .next (.refl s)

/-! ### The part's own judgements -/

theorem corTakeRecord_findings : Leads (FindingsKept s) (execCorTakeRecord s) := by
  unfold execCorTakeRecord; split
  · exact .next (.refl s)
  · exact .next ((prbTake_findings _).comp ((handleRecord_findings _ _).comp (.refl s)))

theorem assemblyAbandon_findings (n : StreamIx) (slot : Nat) :
    Leads (FindingsKept s) (execAssemblyAbandon n slot s) := by
  unfold execAssemblyAbandon; split
  · exact .next (.refl s)
  · exact .next (.ite (.comp (.post _ _ _) (.refl s)) (.refl s))

theorem echoOverdue_findings : Leads (FindingsKept s) (execEchoOverdue s) := by
  unfold execEchoOverdue; split
  · exact .next (.refl s)
  · exact .next ((prbTake_findings _).comp (judgeOverdue_findings s _))

theorem calmNJudgement_findings (high : Bool) : Leads (FindingsKept s) (execCalmNJudgement high s) := by
  unfold execCalmNJudgement; dsimp only; split
  · exact .next (.refl s)
  · split
    · exact .next (.ite ((enterHoldoff_findings _).comp (.refl s)) (.refl s))
    · exact .next (.refl s)
    · exact .next (.refl s)

theorem holdoffRelease_findings : Leads (FindingsKept s) (execHoldoffRelease s) := by
  unfold execHoldoffRelease; split
  · exact .next (.ite (releaseHoldoff_findings s) (.refl s))
  · exact .next (.refl s)

theorem holdoffLimit_findings : Leads (FindingsKept s) (execHoldoffLimit s) := by
  unfold execHoldoffLimit; split
  · exact .next (.ite (passLimit_findings s _) (.refl s))
  · exact .next (.refl s)

end

/-! ### The managers' commands -/

section
variable (s : State)

theorem takenSetStream_findings (o : SetStreamOps) : FindingsKept s (takenSetStream o s).1 := by
  unfold takenSetStream; split
  · exact .refl s
  split
  · exact .refl s
  split
  · exact .refl s
  split <;> exact .refl s

theorem takenEnableStream_findings (b : Byte) : FindingsKept s (takenEnableStream b s).1 := by
  unfold takenEnableStream; split
  · exact .refl s
  split
  · exact .refl s
  split <;> exact .refl s

theorem takenDisableStream_findings (b : Byte) : FindingsKept s (takenDisableStream b s).1 := by
  unfold takenDisableStream; split
  · exact .refl s
  split
  · exact (prbTake_findings _).comp ((withdrawStream_findings _ _).comp (.refl s))
  · exact .refl s

theorem takenSetPair_findings (o : SetPairOps) : FindingsKept s (takenSetPair o s).1 := by
  unfold takenSetPair; split
  · exact .refl s
  split
  · exact .refl s
  split
  · dsimp only
    split
    · exact .refl s
    split
    · exact .refl s
    split
    · exact .refl s
    exact (recomputeT_findings _ _).comp (.refl s)
  · exact .refl s

theorem takenEnablePair_findings (b : Byte) : FindingsKept s (takenEnablePair b s).1 := by
  unfold takenEnablePair; split
  · exact .refl s
  split
  · exact .refl s
  split
  · exact .refl s
  exact (recomputeT_findings _ _).comp (.refl s)

theorem takenRetirePair_findings (b : Byte) : FindingsKept s (takenRetirePair b s).1 := by
  unfold takenRetirePair; split
  · exact .refl s
  split
  · exact .refl s
  · exact .refl s
  · exact .refl s
  all_goals exact (settleDraining_findings _ _).comp (.refl s)

theorem takenClearPair_findings (b : Byte) : FindingsKept s (takenClearPair b s).1 := by
  unfold takenClearPair; split
  · exact .refl s
  split
  · exact .refl s
  exact .ite (.refl s) (.refl s)

/-- SET_SOURCE writes the configuration of its source, and none of the findings (R145). -/
theorem takenSetSource_findings (o : SetSourceOps) : FindingsKept s (takenSetSource o s).1 := by
  unfold takenSetSource; split
  · exact .refl s
  split
  · exact .modSource id
  · exact .refl s

theorem takenSetThreshold_findings (target v : Byte) : FindingsKept s (takenSetThreshold target v s).1 := by
  unfold takenSetThreshold; split
  · exact .refl s
  · next m _ => cases m <;> exact .refl s

/-- ACKNOWLEDGE clears every finding of its source (R152). -/
theorem takenAcknowledge_findings (m : Manager) (b : Byte) : FindingsKept s (takenAcknowledge m b s).1 := by
  unfold takenAcknowledge; split
  · exact .refl s
  split
  · exact .refl s
  split
  · exact .refl s
  exact .modSource fun _ => acknowledged_sound _ _

theorem actOnLossSettings_findings (was : Bool) : FindingsKept s (actOnLossSettings was s) := by
  have hlost : FindingsKept s (if lossDue s then enterLost s else s) := .ite (enterLost_findings s) (.refl s)
  exact .ite (.ite ((joinTrigger_findings _ _).comp hlost) (.ite (.comp (.refl _) hlost) hlost)) hlost

theorem actOnHoldoffLimit_findings : FindingsKept s (actOnHoldoffLimit s) := by
  unfold actOnHoldoffLimit; split
  · exact .ite (releaseHoldoff_findings s) (.ite (passLimit_findings s _) (.refl s))
  · exact .refl s

theorem actOnReleaseSettle_findings : FindingsKept s (actOnReleaseSettle s) := by
  unfold actOnReleaseSettle; split
  · exact .ite (releaseHoldoff_findings s) (.refl s)
  · exact .refl s

theorem actOnFactor_findings : FindingsKept s (actOnFactor s) := by
  unfold actOnFactor; split
  · exact .ite (setFactor_findings s _) (.refl s)
  · exact .refl s

theorem takenSetVerdict_findings (o : SetVerdictOps) : FindingsKept s (takenSetVerdict o s).1 := by
  unfold takenSetVerdict; split
  · exact (actOnFactor_findings _).comp ((actOnReleaseSettle_findings _).comp ((actOnHoldoffLimit_findings _).comp
      ((actOnLossSettings_findings _ _).comp (.refl s))))
  · exact .refl s

theorem takenClearBoard_findings : FindingsKept s (takenClearBoard s).1 := by
  unfold takenClearBoard; split
  · split <;> exact .refl s
  · exact .refl s
  · exact .refl s

theorem takenSetProbe_findings (mode : Byte) (limit : BitVec 32) : FindingsKept s (takenSetProbe mode limit s).1 := by
  unfold takenSetProbe; split
  · exact .refl s
  · next fetch _ =>
    have hset (f : Echo → Echo) :
        FindingsKept s (State.modEcho f (if s.echo.fetchCheck ∧ ¬ fetch then switchProbeOff s else s)) :=
      .comp (.refl _) (.ite (switchProbeOff_findings s) (.refl s))
    exact (prbTake_findings _).comp (.ite ((starveInHand_findings _).comp (hset _)) (hset _))

theorem takenProbeLine_findings (a : BitVec 40) : FindingsKept s (takenProbeLine a s).1 := by
  unfold takenProbeLine; split
  · exact .refl s
  split
  · exact .refl s
  exact (prbTake_findings _).comp (.refl s)

theorem takenSetTime_findings (sec : BitVec 32) (tick : BitVec 16) : FindingsKept s (takenSetTime sec tick s).1 := by
  unfold takenSetTime; split <;> exact .refl s

theorem takenReadStream_findings (b : Byte) : FindingsKept s (takenReadStream b s).1 := by
  unfold takenReadStream; split <;> exact .refl s

theorem takenReadPair_findings (b : Byte) : FindingsKept s (takenReadPair b s).1 := by
  unfold takenReadPair; split <;> exact .refl s

theorem takenReadEstimate_findings (b : Byte) : FindingsKept s (takenReadEstimate b s).1 := by
  unfold takenReadEstimate; split <;> exact .refl s

theorem takenReadSource_findings (b : Byte) : FindingsKept s (takenReadSource b s).1 := by
  unfold takenReadSource; split <;> exact .refl s

end

/-! ### The resets -/

theorem powerOnReset_reports (straps : Straps) (s : State) : Leads (ReportsKept s) (exec (.powerOnReset straps) s) :=
  .next ⟨fun _ => (powerOnReset_atReset straps _ _ _).sourcesHold,
    fun _ => ⟨initial_holds.congr rfl rfl, initial_holds.congr rfl rfl⟩⟩

theorem resetPart_reports (l : Manager) (s : State) : Leads (ReportsKept s) (exec (.resetPart l) s) := by
  refine .next ?_
  rw [unlessVoid]
  split
  · exact .modLink fun hl => hl.congr rfl rfl
  · refine ⟨fun _ => (((resetBlocks_atReset s).modLink l _).modLink (otherManager l) _).sourcesHold, fun _ => ?_⟩
    cases l with
    | A => exact ⟨resetCarrying_holds _ _, resetByPart_holds _⟩
    | B => exact ⟨resetByPart_holds _, resetCarrying_holds _ _⟩

/-! ### Every command -/

/-- No command parts the findings of a source, nor a link's intake from its selection or its frame. -/
theorem exec_reports (c : Instr) (s : State) : Leads (ReportsKept s) (exec c s) := by
  have judged {o : Host.Outcome State Fault Refusal} (h : Leads (FindingsKept s) o) : Leads (ReportsKept s) o :=
    h.mono fun _ k => k.reports
  have own {t : State} (h : FindingsKept s t) : Leads (ReportsKept s) (.next t) := .next h.reports
  cases c with
  | powerOnReset straps => exact powerOnReset_reports straps s
  | tickBoundary | rowActivate | bankPrecharge => exact own (.refl s)
  | rankPrecharge rank => exact own (.modTap _ s)
  | columnCommand b column op length auto => exact judged (columnCommand_findings s b column op length auto)
  | writeDataComplete which data mask dur => exact judged (writeDataComplete_findings s which data mask dur)
  | readDataComplete which data dur => exact judged (readDataComplete_findings s which data dur)
  | corTakeRecord => exact judged (corTakeRecord_findings s)
  | assemblyAbandon n slot => exact judged (assemblyAbandon_findings s n slot)
  | silence n => exact own (.ite (.comp (.post _ _ _) (.refl s)) (.refl s))
  | entryExpiry p => exact own (examineOpen_findings p s)
  | entryLoss p => exact own (examineLate_findings p s)
  | windowEnd p => exact own (.ite (endWindow_findings p s) (.refl s))
  | quiesceOverrun p => exact own (.ite (overrunQuiesce_findings p s) (.refl s))
  | pulseMissed n => exact own (.ite (missPulse_findings s n) (.refl s))
  | echoOverdue => exact judged (echoOverdue_findings s)
  | probeGrant => exact judged (probeGrant_findings s)
  | probeDataReturn data abandoned => exact judged (probeDataReturn_findings s data abandoned)
  | probeGrantReleased => exact judged (probeGrantReleased_findings s)
  | grantWaitExpiry => exact own (.ite ((prbTake_findings _).comp (starveInHand_findings s)) (.refl s))
  | clockStop => exact judged (clockStop_findings s)
  | channelLoss => exact own (.ite (enterLost_findings s) (.refl s))
  | clockResume => exact own (.ite (.refl s) (.refl s))
  | returnAfterLoss => exact judged (returnAfterLoss_findings s)
  | boardResetAsserted => exact own (.ite (.refl s) ((startDiscontinuity_findings _).comp (.refl s)))
  | boardResetReleased =>
    exact own (.ite ((prbTake_findings _).comp ((endDiscontinuity_findings _).comp (.refl s))) (.refl s))
  | calmNJudgement high => exact judged (calmNJudgement_findings s high)
  | holdoffRelease => exact judged (holdoffRelease_findings s)
  | holdoffLimit => exact judged (holdoffLimit_findings s)
  | addressCharacter l ch | dataCharacter l ch => exact .next (.modLink (receive_holds l _ _ ch))
  | frameGapTimeout l =>
    refine .next (.modLink fun h => ?_)
    split
    · exact gapTimeout_holds h
    · exact h
  | replyComplete l => exact .next (.modLink replyDone_holds)
  | abandonedReplyStop l =>
    refine .next (.modLink fun h => ?_)
    split
    · exact h.congr rfl rfl
    · exact h
  | readSummary l | claim l | readVerdict l | readTime l | readProbe l => exact .next (answer_reports l _ (.refl s))
  | setStream l o => exact .next (answer_reports l _ (takenSetStream_findings s o))
  | readStream l b => exact .next (answer_reports l _ (takenReadStream_findings s b))
  | enableStream l b => exact .next (answer_reports l _ (takenEnableStream_findings s b))
  | disableStream l b => exact .next (answer_reports l _ (takenDisableStream_findings s b))
  | setPair l o => exact .next (answer_reports l _ (takenSetPair_findings s o))
  | readPair l b => exact .next (answer_reports l _ (takenReadPair_findings s b))
  | enablePair l b => exact .next (answer_reports l _ (takenEnablePair_findings s b))
  | retirePair l b => exact .next (answer_reports l _ (takenRetirePair_findings s b))
  | clearPair l b => exact .next (answer_reports l _ (takenClearPair_findings s b))
  | readEstimate l b => exact .next (answer_reports l _ (takenReadEstimate_findings s b))
  | setSource l o => exact .next (answer_reports l _ (takenSetSource_findings s o))
  | readSource l b => exact .next (answer_reports l _ (takenReadSource_findings s b))
  | setThreshold l target v => exact .next (answer_reports l _ (takenSetThreshold_findings s target v))
  | acknowledge l b => exact .next (answer_reports l _ (takenAcknowledge_findings s l b))
  | setVerdict l o => exact .next (answer_reports l _ (takenSetVerdict_findings s o))
  | clearBoard l => exact .next (answer_reports l _ (takenClearBoard_findings s))
  | setProbe l mode limit => exact .next (answer_reports l _ (takenSetProbe_findings s mode limit))
  | probeLine l a => exact .next (answer_reports l _ (takenProbeLine_findings s a))
  | setTime l sec tick => exact .next (answer_reports l _ (takenSetTime_findings s sec tick))
  | resetPart l => exact resetPart_reports l s

theorem step_reports {s t : State} (h : step s = .next t) : ReportsKept s t := by
  unfold step at h
  split at h
  · cases h; exact .refl s
  · next c rest _ => exact exec_reports c { s with pending := rest } t h

/-- Settles O15: a posting sets every finding and an acknowledgement clears every one, and of the links' characters, answers and
resets each leaves the intake in a state that its selection allows. -/
theorem stepKeepsSourcesAndLinks : Obligations.StepKeepsSourcesAndLinks :=
  ⟨fun _ _ hs h => (step_reports h).1 hs, fun _ _ hs h => (step_reports h).2 hs⟩

end Sys2Proof.Machine
end

/-! ## The sources and the thresholds are configured -/
section

namespace Sys2Proof.Machine

/-! ### The codes of SET_SOURCE (Table 11.3) -/

theorem targetOf_eq_some {b : Byte} {m : Manager} :
    targetOf b = some m ↔ b.toNat ≤ 1 ∧ (if b.toNat = 0 then .A else .B) = m := by
  simp only [targetOf, ← BitVec.toNat_inj]
  rcases b.toNat with _ | _ | k <;> simp

theorem triggerOf_eq_some {b : Byte} {t : SourceTrigger} :
    triggerOf b = some t ↔ b.toNat ≤ 1 ∧ (if b.toNat = 0 then .latched else .level) = t := by
  simp only [triggerOf, ← BitVec.toNat_inj]
  rcases b.toNat with _ | _ | k <;> simp

/-- No source has this number (R174). -/
theorem sourceOf_none {k : Nat} (h : k = 0 ∨ 27 < k) : sourceOf k = none :=
  Option.eq_none_iff_forall_ne_some.mpr fun i hi => by
    have := sourceOf_eq.mp hi
    have := i.2
    omega

/-! ### SET_SOURCE (R145) -/

/-- The code fields of SET_SOURCE have values that Table 11.3 gives. -/
def SourceFits (o : SetSourceOps) : Prop := o.enable.toNat ≤ 1 ∧ o.target.toNat ≤ 1 ∧ o.trigger.toNat ≤ 1

/-- A source with the configuration that SET_SOURCE describes. -/
def Source.configured (o : SetSourceOps) (x : Source) : Source :=
  { x with
    priority := min o.priority.toNat 15, enable := decide (o.enable.toNat = 1)
    target := if o.target.toNat = 0 then .A else .B
    trigger := if o.trigger.toNat = 0 then .latched else .level }

section
variable {o : SetSourceOps} (s : State)

theorem takenSetSource_noSource (h : o.source.toNat = 0 ∨ 27 < o.source.toNat) :
    takenSetSource o s = (s, Reply.plain .range) := by
  simp only [takenSetSource, sourceOf_none h]
  rfl

theorem takenSetSource_unfit (h : ¬ SourceFits o) : takenSetSource o s = (s, Reply.plain .range) := by
  unfold takenSetSource
  split
  · rfl
  split
  · next en tg tr hen htg htr =>
    obtain ⟨hen, -⟩ := flagOf_eq_some.mp hen
    obtain ⟨htg, -⟩ := targetOf_eq_some.mp htg
    obtain ⟨htr, -⟩ := triggerOf_eq_some.mp htr
    exact absurd ⟨hen, htg, htr⟩ h
  · rfl

theorem takenSetSource_fit {i : SourceIx} (hi : o.source.toNat = i.1 + 1) (h : SourceFits o) : takenSetSource o s
    = (s.modSource i (Source.configured o), Reply.plain (takenStatus (decide (15 < o.priority.toNat)))) := by
  obtain ⟨hen, htg, htr⟩ := h
  simp only [takenSetSource, sourceOf_eq.mpr hi, flagOf_eq_some.mpr ⟨hen, rfl⟩, targetOf_eq_some.mpr ⟨htg, rfl⟩,
    triggerOf_eq_some.mpr ⟨htr, rfl⟩]
  rfl

end

/-! ### SET_THRESHOLD (R147) -/

section
variable {target : Byte} (value : Byte) (s : State)

theorem takenSetThreshold_unfit (h : 1 < target.toNat) : takenSetThreshold target value s = (s, Reply.plain .range) := by
  have hnone : targetOf target = none := Option.eq_none_iff_forall_ne_some.mpr fun m hm =>
    Nat.not_le.mpr h (targetOf_eq_some.mp hm).1
  simp only [takenSetThreshold, hnone]
  rfl

theorem takenSetThreshold_fit {m : Manager} (h : targetOf target = some m) : takenSetThreshold target value s
    = ({ s with iar := s.iar.setThreshold m (min value.toNat 15) },
      Reply.plain (takenStatus (decide (15 < value.toNat)))) := by
  simp only [takenSetThreshold, h]

end

/-! ### The answers -/

/-- CLAMPED for a value above 15, and OK otherwise (R145, R147). -/
theorem takenStatus_above (v : Nat) : takenStatus (decide (15 < v)) = if 15 < v then .clamped else .ok := by
  simp [takenStatus]

theorem answers_setSource {l : Manager} {o : SetSourceOps} {s t : State} {st : Status}
    (h : takenSetSource o s = (t, Reply.plain st)) : Answers l (.setSource l o) s t st := by
  rw [Answers, ← Reply.plain, ← h]
  rfl

theorem answers_setThreshold {l : Manager} {target value : Byte} {s t : State} {st : Status}
    (h : takenSetThreshold target value s = (t, Reply.plain st)) : Answers l (.setThreshold l target value) s t st := by
  rw [Answers, ← Reply.plain, ← h]
  rfl

/-- A source changed leaves every other source and both thresholds. -/
theorem modSource_others (i : SourceIx) (f : Source → Source) (s : State) : OtherSources i s (s.modSource i f) :=
  ⟨fun _ h => modSource_other s h f, rfl, rfl⟩

/-- Settles O55: each command by its refusals and then by what it writes. -/
theorem sourcesAreConfigured : Obligations.SourcesAreConfigured := by
  intro l o target value s c codes
  refine ⟨fun h => answers_setSource (takenSetSource_noSource s h), fun h => answers_setSource (takenSetSource_unfit s h),
    fun i hi hcodes => ?_, fun h => answers_setThreshold (takenSetThreshold_unfit value s h), fun h => ?_, fun h => ?_⟩
  · refine ⟨s.modSource i (Source.configured o), answers_setSource ?_, rfl, modSource_others i _ s, modSource_same s i _⟩
    rw [takenSetSource_fit s hi hcodes, takenStatus_above]
  · refine answers_setThreshold ?_
    rw [takenSetThreshold_fit (m := .A) value s (targetOf_eq_some.mpr (by simp [h])), takenStatus_above]
    rfl
  · refine answers_setThreshold ?_
    rw [takenSetThreshold_fit (m := .B) value s (targetOf_eq_some.mpr (by simp [h])), takenStatus_above]
    rfl

end Sys2Proof.Machine
end

/-! ## Standing conditions, winners, CLAIM and ACKNOWLEDGE -/
section

namespace Sys2Proof.Machine

/-! ### The standing conditions (R148) -/

section
variable (s : State)

theorem standing_streamSource (n : StreamIx) : standing s (streamSource n) = true ↔
    (s.stream n).silent = true ∨ 1 ≤ (s.stream n).pulse.missCount := by
  have hn : streamOf ((streamSource n).1 + 1) = some n := streamOf_eq.mpr rfl
  simp only [standing, hn, Bool.or_eq_true, decide_eq_true_eq]

theorem health_standing (h : Health) : h.standing = true ↔ h = .watch ∨ h = .suspect ∨ h = .failed := by
  cases h <;> decide

theorem standing_pairSource (p : PairIx) : standing s (pairSource p) = true ↔
    (s.pair p).health = .watch ∨ (s.pair p).health = .suspect ∨ (s.pair p).health = .failed
      ∨ (s.pair p).hev.promotionPending = true := by
  have hstream : streamOf ((pairSource p).1 + 1) = none := streamOf_none (.inr (by simp [pairSource]))
  have hpair : pairNumbered ((pairSource p).1 - 15) = some p := (pairNumbered_eq p).mpr (by simp [pairSource])
  simp only [standing, hstream, hpair, Bool.or_eq_true, health_standing, or_assoc]

theorem standing_echoSource : standing s echoSource = true ↔ s.echo.entries.length = 64 := decide_eq_true_iff

theorem standing_commitSource : standing s commitSource = true ↔ s.commitQueue.length = 4 := decide_eq_true_iff

theorem standing_boardSource : standing s boardSource = true ↔ s.vrd.verdict ≠ .normal := decide_eq_true_iff

end

/-! ### The winner (R149) -/

/-- A source goes before another: its priority is higher, or equal with an ID no higher (R149). -/
def Outranks (s : State) (i j : SourceIx) : Prop :=
  (s.source j).priority < (s.source i).priority ∨ (s.source j).priority = (s.source i).priority ∧ i.1 ≤ j.1

/-- The candidate is the claimable source of a list that goes before every other, or none where the list has none. -/
def Best (s : State) (m : Manager) (l : List SourceIx) : Option SourceIx → Prop
  | none => ∀ j ∈ l, claimable s m j = false
  | some i => i ∈ l ∧ claimable s m i = true ∧ ∀ j ∈ l, claimable s m j = true → Outranks s i j

section
variable {s : State} {m : Manager}

theorem Outranks.refl (i : SourceIx) : Outranks s i i := .inr ⟨rfl, le_rfl⟩

theorem Outranks.trans {i j k : SourceIx} (h : Outranks s i j) (h' : Outranks s j k) : Outranks s i k := by
  unfold Outranks at *
  omega

theorem Outranks.antisymm {i j : SourceIx} (h : Outranks s i j) (h' : Outranks s j i) : i = j := by
  unfold Outranks at *
  exact Fin.ext (by omega)

/-- A source of a higher ID takes its place among the candidates. -/
theorem betterSource_best {l : List SourceIx} {best : Option SourceIx} {a : SourceIx} (h : Best s m l best)
    (hlast : ∀ j ∈ l, j < a) : Best s m (l ++ [a]) (betterSource s m best a) := by
  have hmem {j : SourceIx} : j ∈ l ++ [a] ↔ j ∈ l ∨ j = a := by simp
  unfold betterSource
  cases ha : claimable s m a with
  | false =>
    rw [if_neg Bool.false_ne_true]
    cases best with
    | none => exact fun j hj => (hmem.mp hj).elim (h j) fun e => e ▸ ha
    | some b =>
      obtain ⟨hb, hclaim, hrank⟩ := h
      refine ⟨hmem.mpr (.inl hb), hclaim, fun j hj hc => (hmem.mp hj).elim (hrank j · hc) ?_⟩
      rintro rfl
      exact absurd hc (by simp [ha])
  | true =>
    rw [if_pos rfl]
    cases best with
    | none =>
      refine ⟨hmem.mpr (.inr rfl), ha, fun j hj hc => (hmem.mp hj).elim (fun hj => ?_) fun e => e ▸ .refl _⟩
      exact absurd hc (by simp [h j hj])
    | some b =>
      obtain ⟨hb, hclaim, hrank⟩ := h
      have hba : b.1 < a.1 := hlast b hb
      dsimp only
      split
      · next hlt =>
        exact ⟨hmem.mpr (.inr rfl), ha, fun j hj hc => (hmem.mp hj).elim
          (fun hj => Outranks.trans (.inl hlt) (hrank j hj hc)) fun e => e ▸ .refl _⟩
      · next hge =>
        have hrank' : Outranks s b a := by unfold Outranks; omega
        exact ⟨hmem.mpr (.inl hb), hclaim, fun j hj hc => (hmem.mp hj).elim (hrank j · hc) fun e => e ▸ hrank'⟩

theorem foldl_best {l : List SourceIx} (h : l.Pairwise (· < ·)) : Best s m l (l.foldl (betterSource s m) none) := by
  induction l using List.reverseRecOn with
  | nil => exact fun j hj => absurd hj List.not_mem_nil
  | append_singleton l a ih =>
    obtain ⟨hl, -, hlast⟩ := List.pairwise_append.mp h
    rw [List.foldl_append]
    exact betterSource_best (ih hl) fun j hj => hlast j hj a (List.mem_singleton_self a)

theorem winner_best : Best s m allSources (winner s m) := foldl_best (by decide)

theorem winner_eq_none : winner s m = none ↔ ∀ i, claimable s m i = false := by
  have hbest : Best s m allSources (winner s m) := winner_best
  cases hw : winner s m with
  | none => rw [hw] at hbest; exact iff_of_true rfl fun i => hbest i (mem_allSources i)
  | some b =>
    rw [hw] at hbest
    obtain ⟨-, hclaim, -⟩ := hbest
    exact iff_of_false nofun fun h => absurd hclaim (by simp [h b])

/-- The claimable source that goes before every other is the winner. -/
theorem winner_eq_some {i : SourceIx} (hclaim : claimable s m i = true)
    (hrank : ∀ j, claimable s m j = true → Outranks s i j) : winner s m = some i := by
  have hbest : Best s m allSources (winner s m) := winner_best
  cases hw : winner s m with
  | none => exact absurd hclaim (by simp [winner_eq_none.mp hw i])
  | some b =>
    rw [hw] at hbest
    obtain ⟨-, hb, hfirst⟩ := hbest
    rw [(hrank b hb).antisymm (hfirst i (mem_allSources i) hclaim)]

/-- Which sources are claimable for a target (R149). -/
theorem claimable_iff {i : SourceIx} : claimable s m i = true ↔
    (s.source i).pending = true ∧ (s.source i).enable = true ∧ (s.source i).target = m
      ∧ s.iar.threshold m < (s.source i).priority := by
  simp only [claimable, Source.claimable, Bool.and_eq_true, decide_eq_true_eq, and_assoc]

theorem attentionLow_iff : attentionLow s m = true ↔ ∃ i, claimable s m i = true := by
  rw [attentionLow, Option.isSome_iff_ne_none, ne_eq, winner_eq_none]
  simp

end

/-! ### CLAIM (R151) -/

theorem claim_reports {l : Manager} {s : State} {data : List Byte} (h : claimData s l = data) :
    Reports l (.claim l) s data := by
  rw [Reports, ← h]
  rfl

theorem claimData_none {s : State} {m : Manager} (h : winner s m = none) : claimData s m = List.replicate 19 0 := by
  simp only [claimData, h]
  decide

theorem claimData_some {s : State} {m : Manager} {i : SourceIx} (h : winner s m = some i) : claimData s m =
    [BitVec.ofNat 8 (i.1 + 1), BitVec.ofNat 8 (s.source i).priority]
      ++ leBytes 2 (s.source i).causes.toNat ++ [(s.source i).count]
      ++ optionalStamp (s.source i).firstStamp ++ optionalStamp (s.source i).lastStamp := by
  simp only [claimData, h, b2]

/-! ### ACKNOWLEDGE (R152) -/

section
variable {m : Manager} {b : Byte} {s : State} {i : SourceIx}

theorem takenAcknowledge_noSource (h : b.toNat = 0 ∨ 27 < b.toNat) :
    takenAcknowledge m b s = (s, Reply.plain .range) := by
  simp only [takenAcknowledge, sourceOf_none h]
  rfl

theorem takenAcknowledge_notOwner (hi : b.toNat = i.1 + 1) (ht : (s.source i).target ≠ m) :
    takenAcknowledge m b s = (s, Reply.plain .notOwner) := by
  simp only [takenAcknowledge, sourceOf_eq.mpr hi, if_pos ht]
  rfl

theorem takenAcknowledge_clear (hi : b.toNat = i.1 + 1) (ht : (s.source i).target = m)
    (hp : (s.source i).pending = false) : takenAcknowledge m b s = (s, Reply.plain .ok) := by
  simp [takenAcknowledge, sourceOf_eq.mpr hi, ht, hp, done]

/-- A pending source of a LEVEL trigger whose condition holds stays pending (R152). -/
theorem takenAcknowledge_pending (hi : b.toNat = i.1 + 1) (ht : (s.source i).target = m)
    (hp : (s.source i).pending = true) : takenAcknowledge m b s
      = (s.modSource i (Source.acknowledged (decide ((s.source i).trigger = .level) && standing s i)),
        Reply.plain (if (decide ((s.source i).trigger = .level) && standing s i) = true then .still else .ok)) := by
  simp only [takenAcknowledge, sourceOf_eq.mpr hi, ne_eq, ht, hp, not_true_eq_false, if_false]

theorem answers_acknowledge {t : State} {st : Status} (h : takenAcknowledge m b s = (t, Reply.plain st)) :
    Answers m (.acknowledge m b) s t st := by
  rw [Answers, ← Reply.plain, ← h]
  rfl

end

/-- Settles O56: the standing conditions class by class, the winner as the claimable source that outranks every other, and
ACKNOWLEDGE by its checks in their order. -/
theorem claimsAndAcknowledgements : Obligations.ClaimsAndAcknowledgements := by
  intro l s claims
  have hclaims (i : SourceIx) : claims i ↔ claimable s l i = true := claimable_iff.symm
  refine ⟨standing_streamSource s, standing_pairSource s, standing_echoSource s, standing_commitSource s,
    standing_boardSource s, ?_, fun hnone => ?_, fun i hi hrank => ?_, fun b => ⟨?_, fun i hb => ⟨?_, ?_, ?_⟩⟩⟩
  · exact attentionLow_iff.trans (exists_congr fun i => (hclaims i).symm)
  · exact claim_reports (claimData_none (winner_eq_none.mpr fun i =>
      Bool.eq_false_iff.mpr fun h => hnone i ((hclaims i).mpr h)))
  · exact claim_reports (claimData_some (winner_eq_some ((hclaims i).mp hi) fun j hj => hrank j ((hclaims j).mpr hj)))
  · exact fun h => answers_acknowledge (takenAcknowledge_noSource h)
  · exact fun ht => answers_acknowledge (takenAcknowledge_notOwner hb ht)
  · exact fun ht hp => answers_acknowledge (takenAcknowledge_clear hb ht hp)
  · exact fun ht hp => ⟨_, answers_acknowledge (takenAcknowledge_pending hb ht hp), rfl, modSource_others i _ s,
      modSource_same s i _⟩

end Sys2Proof.Machine
end

/-! ## The step and the queue of commands -/
section

namespace Sys2Proof.Machine

variable {c : Instr} {rest : List Instr} {s : State}

theorem step_of_pending_nil (h : s.pending = []) : step s = .next s := by
  rw [step, h]

theorem step_of_pending_cons (h : s.pending = c :: rest) : step s = exec c { s with pending := rest } := by
  rw [step, h]

theorem withCommand_pending : (s.withCommand c).pending = c :: s.pending := rfl

/-- Taking the command off the queue again gives the state back. -/
theorem withCommand_taken : { s.withCommand c with pending := s.pending } = s := rfl

theorem step_withCommand : step (s.withCommand c) = exec c s := by
  rw [step_of_pending_cons withCommand_pending, withCommand_taken]

/-- Settles O1: the two cases of the queue, and a command put at its front as an instance of the second. -/
theorem stepRunsTheFrontCommand : Obligations.StepRunsTheFrontCommand :=
  ⟨fun _ _ => step_withCommand, fun _ _ _ h => step_of_pending_cons h, fun _ h => step_of_pending_nil h⟩

end Sys2Proof.Machine
end

/-! ## The part of the state that no owner writes, and the completion of every command -/
section

namespace Sys2Proof.Machine

/-! ### The straps, the links and the queue of commands -/

/-- The straps, the two links and the queue of commands: what neither the owners of the commands nor the events of the part write. -/
def State.shell (s : State) : Straps × Link × Link × List Instr := (s.straps, s.linkA, s.linkB, s.pending)

section
variable {s t : State}

theorem shell_eq_iff : t.shell = s.shell
    ↔ t.straps = s.straps ∧ t.linkA = s.linkA ∧ t.linkB = s.linkB ∧ t.pending = s.pending := by
  simp only [State.shell, Prod.mk.injEq]

theorem PairsAndSources.shell (h : PairsAndSources s t) : t.shell = s.shell := by rw [h]; rfl

theorem EchoOnly.shell (h : EchoOnly s t) : t.shell = s.shell := by rw [h]; rfl

theorem VerdictOnly.shell (h : VerdictOnly s t) : t.shell = s.shell := by rw [h]; rfl

theorem AssemblerOnly.shell {n : StreamIx} (h : AssemblerOnly n s t) : t.shell = s.shell := by rw [h.frame]; rfl

theorem WindowOnly.shell {p : PairIx} (h : WindowOnly p s t) : t.shell = s.shell := by rw [h.frame]; rfl

end

section
variable (s : State) (p : PairIx) (n : StreamIx)

@[simp] theorem modStream_shell (f : Stream → Stream) : (s.modStream n f).shell = s.shell := rfl
@[simp] theorem modPair_shell (f : Pair → Pair) : (s.modPair p f).shell = s.shell := rfl
@[simp] theorem modSource_shell (i : SourceIx) (f : Source → Source) : (s.modSource i f).shell = s.shell := rfl
@[simp] theorem modTap_shell (f : Tap → Tap) : (s.modTap f).shell = s.shell := rfl
@[simp] theorem modPort_shell (f : ProbePort → ProbePort) : (s.modPort f).shell = s.shell := rfl
@[simp] theorem modEcho_shell (f : Echo → Echo) : (s.modEcho f).shell = s.shell := rfl
@[simp] theorem modVrd_shell (f : Vrd → Vrd) : (s.modVrd f).shell = s.shell := rfl
@[simp] theorem post_shell (i : SourceIx) (c : Cause) : (post i c s).shell = s.shell := rfl

/-! ### The shared operations -/

@[simp] theorem pairedEvent_shell : (pairedEvent p s).shell = s.shell := (pairedEvent_windowOnly s p).shell

@[simp] theorem adverseEvent_shell : (adverseEvent p s).shell = s.shell := (adverseEvent_windowOnly s p).shell

@[simp] theorem settleDraining_shell : (settleDraining p s).shell = s.shell :=
  (settleDraining_examined s p).frame.shell

@[simp] theorem examineOpen_shell : (examineOpen p s).shell = s.shell := (examineOpen_examined s p).frame.shell

@[simp] theorem examineLate_shell : (examineLate p s).shell = s.shell := (examineLate_examined s p).frame.shell

@[simp] theorem recomputeT_shell : (recomputeT p s).shell = s.shell := (recomputeT_spec s p).1.shell

@[simp] theorem takeSample_shell (l : Nat) : (takeSample p l s).shell = s.shell := recomputeT_shell _ p

@[simp] theorem setFactor_shell (f : Nat) : (setFactor f s).shell = s.shell := (setFactor_only s f).shell

@[simp] theorem joinTrigger_shell (m : Trigger) : (joinTrigger m s).shell = s.shell := (joinTrigger_only s m).shell

@[simp] theorem leaveTrigger_shell (m : Trigger) : (leaveTrigger m s).shell = s.shell := rfl

@[simp] theorem enterLost_shell : (enterLost s).shell = s.shell := (enterLost_only s).shell

@[simp] theorem releaseHoldoff_shell : (releaseHoldoff s).shell = s.shell := (releaseHoldoff_only s).shell

@[simp] theorem enterHoldoff_shell : (enterHoldoff s).shell = s.shell := (enterHoldoff_only s).shell

@[simp] theorem passLimit_shell (h : HoldOff) : (passLimit h s).shell = s.shell := (passLimit_only s h).shell

@[simp] theorem endWindow_shell : (endWindow p s).shell = s.shell := (endWindow_only s p).shell

@[simp] theorem overrunQuiesce_shell : (overrunQuiesce p s).shell = s.shell := rfl

@[simp] theorem missPulse_shell : (missPulse n s).shell = s.shell := by
  simp [missPulse, apply_ite State.shell]

@[simp] theorem pulseRecord_shell (commit : Clock) : (pulseRecord n commit s).shell = s.shell := by
  simp [pulseRecord, apply_ite State.shell]

@[simp] theorem prbTake_shell : (prbTake s).shell = s.shell := (prbTake_only s).shell

@[simp] theorem handOver_shell : (handOver s).shell = s.shell := (handOver_only s).shell

@[simp] theorem starveInHand_shell : (starveInHand s).shell = s.shell := (starveInHand_only s).shell

@[simp] theorem abortByClock_shell : (abortByClock s).shell = s.shell := (abortByClock_only s).shell

@[simp] theorem lineOutcome_shell (v : Bool) (d : LineData) : (lineOutcome v d s).shell = s.shell :=
  (lineOutcome_only s v d).shell

@[simp] theorem judgeOverdue_shell (e : EchoEntry) : (judgeOverdue e s).shell = s.shell :=
  (judgeOverdue_only s e).shell

@[simp] theorem switchProbeOff_shell : (switchProbeOff s).shell = s.shell := (switchProbeOff_only s).shell

@[simp] theorem withdrawStream_shell : (withdrawStream n s).shell = s.shell := (withdrawStream_only s n).shell

@[simp] theorem appendEcho_shell (r : Record) : (appendEcho p r s).shell = s.shell := (appendEcho_only s p r).shell

@[simp] theorem lineRead_shell (k : SlotKey) (i : Nat) (d : LineData) : (lineRead k i d s).shell = s.shell :=
  (lineRead_only s k i d).shell

@[simp] theorem overtake_shell (k : SlotKey) : (overtake k s).shell = s.shell := (overtake_only s k).shell

@[simp] theorem asmWrite_shell (slot : Nat) (i : Fin 8) (d : LineData) (m : ByteMask) :
    (asmWrite n slot i d m s).shell = s.shell := (asmWrite_only s n slot i d m).shell

/-! ### The Correlator (section 4) -/

@[simp] theorem countPair_shell (f : PairCounters → PairCounters) : (countPair p f s).shell = s.shell := rfl

@[simp] theorem addUntracked_shell (k : BitVec 32) : (addUntracked p k s).shell = s.shell := rfl

variable (r : Record)

@[simp] theorem handleRequest_shell : (handleRequest p r s).shell = s.shell := by
  simp [handleRequest, countUnseen_eq, retryRequest, insertRequest, apply_ite State.shell]

@[simp] theorem completeOpen_shell (e : Entry) : (completeOpen p r e s).shell = s.shell := by
  simp [completeOpen, apply_ite State.shell]

@[simp] theorem completeLate_shell (e : LateEntry) : (completeLate p r e s).shell = s.shell := by
  simp [completeLate, apply_ite State.shell]

@[simp] theorem holdOpen_shell (e : Entry) : (holdOpen p r e s).shell = s.shell := by
  simp [holdOpen, apply_ite State.shell]

@[simp] theorem holdLate_shell (e : LateEntry) : (holdLate p r e s).shell = s.shell := by
  simp [holdLate, apply_ite State.shell]

@[simp] theorem matchCompletion_shell : (matchCompletion p r s).shell = s.shell := by
  unfold matchCompletion; split
  · simp [apply_ite State.shell]
  · split <;> simp [orphan, apply_ite State.shell]

@[simp] theorem handleCompletion_shell : (handleCompletion p r s).shell = s.shell := by
  have htaint : (taintWindow p r s).shell = s.shell := by simp [taintWindow, apply_ite State.shell]
  unfold handleCompletion; dsimp only
  split <;> simp [quiesceRecord, resumeRecord, htaint, apply_ite State.shell]

@[simp] theorem handleRecord_shell : (handleRecord r s).shell = s.shell := by
  unfold handleRecord; split
  · simp
  · split <;> simp [apply_ite State.shell]
  · split <;> simp [apply_ite State.shell]
  · rfl

/-! ### The channel (section 2) -/

@[simp] theorem pickup_shell (slot : Nat) : (pickup n slot s).shell = s.shell := by
  unfold pickup; split <;> simp [apply_ite State.shell]

@[simp] theorem countOutside_shell : (countOutside s).shell = s.shell := rfl

@[simp] theorem countUnobserved_shell : (countUnobserved s).shell = s.shell := rfl

@[simp] theorem presentWrite_shell (a : LineAddr) (data : LineData) (mask : ByteMask) :
    (presentWrite a data mask s).shell = s.shell := by
  unfold presentWrite; dsimp only; split <;> simp [apply_ite State.shell]

@[simp] theorem presentRead_shell (a : LineAddr) (data : LineData) : (presentRead a data s).shell = s.shell := by
  unfold presentRead; dsimp only; split
  · simp
  · split <;> simp [apply_ite State.shell]

@[simp] theorem startDiscontinuity_shell : (startDiscontinuity s).shell = s.shell := (flushEcho_only s).shell

@[simp] theorem endDiscontinuity_shell : (endDiscontinuity s).shell = s.shell := rfl

/-! ### The owners of the managers' commands (sections 3 to 9) -/

theorem takenSetStream_shell (o : SetStreamOps) : (takenSetStream o s).1.shell = s.shell := by
  unfold takenSetStream; split
  · rfl
  split
  · rfl
  split
  · rfl
  split <;> rfl

theorem takenReadStream_shell (b : Byte) : (takenReadStream b s).1.shell = s.shell := by
  unfold takenReadStream; split <;> rfl

theorem takenEnableStream_shell (b : Byte) : (takenEnableStream b s).1.shell = s.shell := by
  unfold takenEnableStream; split
  · rfl
  split
  · rfl
  split <;> rfl

theorem takenDisableStream_shell (b : Byte) : (takenDisableStream b s).1.shell = s.shell := by
  unfold takenDisableStream; split
  · rfl
  split
  · exact (prbTake_shell _).trans (withdrawStream_shell _ _)
  · rfl

theorem takenSetPair_shell (o : SetPairOps) : (takenSetPair o s).1.shell = s.shell := by
  unfold takenSetPair; split
  · rfl
  split
  · rfl
  split
  · dsimp only
    split
    · rfl
    split
    · rfl
    split
    · rfl
    exact recomputeT_shell _ _
  · rfl

theorem takenReadPair_shell (b : Byte) : (takenReadPair b s).1.shell = s.shell := by
  unfold takenReadPair; split <;> rfl

theorem takenEnablePair_shell (b : Byte) : (takenEnablePair b s).1.shell = s.shell := by
  unfold takenEnablePair; split
  · rfl
  split
  · rfl
  split
  · rfl
  exact recomputeT_shell _ _

theorem takenRetirePair_shell (b : Byte) : (takenRetirePair b s).1.shell = s.shell := by
  unfold takenRetirePair; split
  · rfl
  split
  · rfl
  · rfl
  · rfl
  all_goals exact settleDraining_shell _ _

theorem takenClearPair_shell (b : Byte) : (takenClearPair b s).1.shell = s.shell := by
  unfold takenClearPair; split
  · rfl
  split
  · rfl
  · simp [done, apply_ite State.shell]

theorem takenReadEstimate_shell (b : Byte) : (takenReadEstimate b s).1.shell = s.shell := by
  unfold takenReadEstimate; split <;> rfl

theorem takenSetSource_shell (o : SetSourceOps) : (takenSetSource o s).1.shell = s.shell := by
  unfold takenSetSource; split
  · rfl
  split <;> rfl

theorem takenReadSource_shell (b : Byte) : (takenReadSource b s).1.shell = s.shell := by
  unfold takenReadSource; split <;> rfl

theorem takenSetThreshold_shell (target v : Byte) : (takenSetThreshold target v s).1.shell = s.shell := by
  unfold takenSetThreshold; split <;> rfl

theorem takenAcknowledge_shell (m : Manager) (b : Byte) : (takenAcknowledge m b s).1.shell = s.shell := by
  unfold takenAcknowledge; split
  · rfl
  split
  · rfl
  split <;> rfl

theorem actOnLossSettings_shell (was : Bool) : (actOnLossSettings was s).shell = s.shell := by
  simp [actOnLossSettings, apply_ite State.shell]

theorem actOnHoldoff_shell : (actOnHoldoff s).shell = s.shell := by
  have hlimit : (actOnHoldoffLimit s).shell = s.shell := by
    unfold actOnHoldoffLimit; split <;> simp [apply_ite State.shell]
  have hsettle (t : State) : (actOnReleaseSettle t).shell = t.shell := by
    unfold actOnReleaseSettle; split <;> simp [apply_ite State.shell]
  have hfactor (t : State) : (actOnFactor t).shell = t.shell := by
    unfold actOnFactor; split <;> simp [apply_ite State.shell]
  exact (hfactor _).trans ((hsettle _).trans hlimit)

theorem takenSetVerdict_shell (o : SetVerdictOps) : (takenSetVerdict o s).1.shell = s.shell := by
  unfold takenSetVerdict; split
  · exact (actOnHoldoff_shell _).trans (actOnLossSettings_shell _ _)
  · rfl

theorem takenClearBoard_shell : (takenClearBoard s).1.shell = s.shell := by
  unfold takenClearBoard; split
  · split <;> rfl
  · rfl
  · rfl

theorem takenSetProbe_shell (mode : Byte) (limit : BitVec 32) : (takenSetProbe mode limit s).1.shell = s.shell := by
  unfold takenSetProbe; split
  · rfl
  · simp [applyProbe, apply_ite State.shell]

theorem takenProbeLine_shell (a : BitVec 40) : (takenProbeLine a s).1.shell = s.shell := by
  unfold takenProbeLine; split
  · rfl
  split
  · rfl
  exact prbTake_shell _

theorem takenSetTime_shell (sec : BitVec 32) (tick : BitVec 16) : (takenSetTime sec tick s).1.shell = s.shell := by
  unfold takenSetTime; split <;> rfl

end

/-! ### The owner of a manager's command -/

/-- What the owner of a manager's command does and answers; RESET_PART, whose row ends in no answer, has none (R163, R168). -/
def ownerTaken (c : Instr) (s : State) : State × Reply :=
  match c with
  | .readSummary _ => report s (readSummaryData s)
  | .setStream _ o => takenSetStream o s
  | .readStream _ b => takenReadStream b s
  | .enableStream _ b => takenEnableStream b s
  | .disableStream _ b => takenDisableStream b s
  | .setPair _ o => takenSetPair o s
  | .readPair _ b => takenReadPair b s
  | .enablePair _ b => takenEnablePair b s
  | .retirePair _ b => takenRetirePair b s
  | .clearPair _ b => takenClearPair b s
  | .readEstimate _ b => takenReadEstimate b s
  | .setSource _ o => takenSetSource o s
  | .readSource _ b => takenReadSource b s
  | .setThreshold _ target v => takenSetThreshold target v s
  | .claim l => takenClaim l s
  | .acknowledge l b => takenAcknowledge l b s
  | .setVerdict _ o => takenSetVerdict o s
  | .readVerdict _ => report s (readVerdictData s)
  | .clearBoard _ => takenClearBoard s
  | .setProbe _ mode limit => takenSetProbe mode limit s
  | .probeLine _ a => takenProbeLine a s
  | .readProbe _ => takenReadProbe s
  | .setTime _ sec tick => takenSetTime sec tick s
  | .readTime _ => report s (readTimeData s)
  | _ => done s

/-- The row of a manager's command ends in the answer of its owner (R163). -/
theorem exec_eq_answer {c : Instr} {m : Manager} (s : State) (hl : c.link? = some m) (hr : ∀ l, c ≠ .resetPart l) :
    exec c s = .next (answer m c s (ownerTaken c s)) := by
  cases c with
  | resetPart l => exact absurd rfl (hr l)
  | _ => cases hl <;> rfl

theorem ownerTaken_shell (c : Instr) (s : State) : (ownerTaken c s).1.shell = s.shell := by
  cases c with
  | setStream l o => exact takenSetStream_shell s o
  | readStream l b => exact takenReadStream_shell s b
  | enableStream l b => exact takenEnableStream_shell s b
  | disableStream l b => exact takenDisableStream_shell s b
  | setPair l o => exact takenSetPair_shell s o
  | readPair l b => exact takenReadPair_shell s b
  | enablePair l b => exact takenEnablePair_shell s b
  | retirePair l b => exact takenRetirePair_shell s b
  | clearPair l b => exact takenClearPair_shell s b
  | readEstimate l b => exact takenReadEstimate_shell s b
  | setSource l o => exact takenSetSource_shell s o
  | readSource l b => exact takenReadSource_shell s b
  | setThreshold l target v => exact takenSetThreshold_shell s target v
  | acknowledge l b => exact takenAcknowledge_shell s l b
  | setVerdict l o => exact takenSetVerdict_shell s o
  | clearBoard l => exact takenClearBoard_shell s
  | setProbe l mode limit => exact takenSetProbe_shell s mode limit
  | probeLine l a => exact takenProbeLine_shell s a
  | setTime l sec tick => exact takenSetTime_shell s sec tick
  | _ => rfl

/-! ### The events of the part (sections 2 to 9) -/

/-- The rows that are neither a manager's command, nor an event of a link, nor power-on reset. -/
def ofThePart : Instr → Bool
  | .powerOnReset _ | .addressCharacter _ _ | .dataCharacter _ _ | .frameGapTimeout _ | .replyComplete _
  | .abandonedReplyStop _ => false
  | c => c.link?.isNone

section
variable (s : State)

/-- The outcome is a next state that has the shell of `s`. -/
def ShellKept (o : Host.Outcome State Fault Refusal) : Prop := Reaches (fun t => t.shell = s.shell) o

variable {s} in
theorem ShellKept.next {t : State} (h : t.shell = s.shell) : ShellKept s (.next t) := Reaches.next h

theorem columnCommand_shellKept (b : BankAddr) (column : BitVec 10) (op : ColumnOp) (length : BurstLength) (auto : Bool) :
    ShellKept s (exec (.columnCommand b column op length auto) s) := by
  rw [exec_columnCommand]; exact .next rfl

theorem writeDataComplete_shellKept (which : Nat) (data : LineData) (mask : ByteMask) (dur : Bool) :
    ShellKept s (execWriteDataComplete which data mask dur s) := by
  unfold execWriteDataComplete; split
  · exact .next rfl
  · exact .next (by simp [apply_ite State.shell])

theorem readDataComplete_shellKept (which : Nat) (data : LineData) (dur : Bool) :
    ShellKept s (execReadDataComplete which data dur s) := by
  unfold execReadDataComplete; split
  · exact .next rfl
  · exact .next (by simp [apply_ite State.shell])

theorem probeGrant_shellKept : ShellKept s (execProbeGrant s) := by
  unfold execProbeGrant; dsimp only; split <;> exact .next rfl

theorem probeDataReturn_shellKept (data : LineData) (abandoned : Bool) :
    ShellKept s (execProbeDataReturn data abandoned s) := by
  unfold execProbeDataReturn; split
  · exact .next ((prbTake_shell _).trans (lineOutcome_shell _ _ _))
  · exact .next rfl

theorem probeGrantReleased_shellKept : ShellKept s (exec .probeGrantReleased s) := by
  by_cases hphase : s.tap.port.phase = .releasing
  · cases hline : s.tap.port.line with
    | some a => rw [exec_probeGrantReleased_held hphase hline]; exact .next rfl
    | none =>
      rw [exec_probeGrantReleased_free hphase hline]
      exact .next ((prbTake_shell _).trans (handOver_shell _))
  · rw [exec_probeGrantReleased_other hphase]; exact .next rfl

theorem clockStop_shellKept : ShellKept s (execClockStop s) := by
  unfold execClockStop; split
  · exact .next ((prbTake_shell _).trans (abortByClock_shell _))
  · exact .next rfl

theorem returnAfterLoss_shellKept : ShellKept s (execReturnAfterLoss s) := by
  unfold execReturnAfterLoss; split
  · exact .next (by simp [apply_ite State.shell])
  · exact .next rfl

theorem corTakeRecord_shellKept : ShellKept s (execCorTakeRecord s) := by
  unfold execCorTakeRecord; split
  · exact .next rfl
  · exact .next ((prbTake_shell _).trans (handleRecord_shell _ _))

theorem assemblyAbandon_shellKept (n : StreamIx) (slot : Nat) : ShellKept s (execAssemblyAbandon n slot s) := by
  unfold execAssemblyAbandon; split
  · exact .next rfl
  · exact .next (by simp [apply_ite State.shell])

theorem echoOverdue_shellKept : ShellKept s (execEchoOverdue s) := by
  unfold execEchoOverdue; split
  · exact .next rfl
  · exact .next ((prbTake_shell _).trans (judgeOverdue_shell _ _))

theorem calmNJudgement_shellKept (high : Bool) : ShellKept s (execCalmNJudgement high s) := by
  unfold execCalmNJudgement; dsimp only; split
  · exact .next rfl
  · split
    · exact .next (by simp [apply_ite State.shell])
    · exact .next rfl
    · exact .next rfl

theorem holdoffRelease_shellKept : ShellKept s (execHoldoffRelease s) := by
  unfold execHoldoffRelease; split
  · exact .next (by simp [apply_ite State.shell])
  · exact .next rfl

theorem holdoffLimit_shellKept : ShellKept s (execHoldoffLimit s) := by
  unfold execHoldoffLimit; split
  · exact .next (by simp [apply_ite State.shell])
  · exact .next rfl

end

theorem exec_shellKept (c : Instr) (hc : ofThePart c = true) (s : State) : ShellKept s (exec c s) := by
  have whether {b : Prop} [Decidable b] {t : State} (h : t.shell = s.shell) : ShellKept s (.next (if b then t else s)) :=
    .next (by rw [apply_ite State.shell, h, ite_self])
  cases c with
  | tickBoundary | rowActivate | bankPrecharge => exact .next rfl
  | rankPrecharge rank => exact .next (modTap_shell s _)
  | columnCommand b column op length auto => exact columnCommand_shellKept s b column op length auto
  | writeDataComplete which data mask dur => exact writeDataComplete_shellKept s which data mask dur
  | readDataComplete which data dur => exact readDataComplete_shellKept s which data dur
  | corTakeRecord => exact corTakeRecord_shellKept s
  | assemblyAbandon n slot => exact assemblyAbandon_shellKept s n slot
  | silence n => exact whether rfl
  | entryExpiry p => exact .next (examineOpen_shell s p)
  | entryLoss p => exact .next (examineLate_shell s p)
  | windowEnd p => exact whether (endWindow_shell s p)
  | quiesceOverrun p => exact whether rfl
  | pulseMissed n => exact whether (missPulse_shell s n)
  | echoOverdue => exact echoOverdue_shellKept s
  | probeGrant => exact probeGrant_shellKept s
  | probeDataReturn data abandoned => exact probeDataReturn_shellKept s data abandoned
  | probeGrantReleased => exact probeGrantReleased_shellKept s
  | grantWaitExpiry => exact whether ((prbTake_shell _).trans (starveInHand_shell s))
  | clockStop => exact clockStop_shellKept s
  | channelLoss => exact whether (enterLost_shell s)
  | clockResume => exact whether rfl
  | returnAfterLoss => exact returnAfterLoss_shellKept s
  | boardResetAsserted =>
    exact .next (by rw [apply_ite State.shell, startDiscontinuity_shell]; exact ite_self _)
  | boardResetReleased => exact whether (prbTake_shell _)
  | calmNJudgement high => exact calmNJudgement_shellKept s high
  | holdoffRelease => exact holdoffRelease_shellKept s
  | holdoffLimit => exact holdoffLimit_shellKept s
  | _ => cases hc

/-! ### Every command completes (R163) -/

theorem exec_resetPart_pending (l : Manager) (s : State) : Reaches (fun t => t.pending = s.pending) (exec (.resetPart l) s) :=
  .next (by
    rw [unlessVoid, apply_ite State.pending, modLink_pending, modLink_pending, modLink_pending]
    exact ite_self _)

/-- Settles O2: the events of the part write nothing of the queue, those of the links and the answers to managers their link
alone, and both resets carry the queue over. -/
theorem everyCommandCompletes : Obligations.EveryCommandCompletes := by
  intro c s
  cases hpart : ofThePart c with
  | true =>
    obtain ⟨t, ht, hshell⟩ := exec_shellKept c hpart s
    obtain ⟨-, -, -, hpending⟩ := shell_eq_iff.mp hshell
    exact ⟨t, ht, hpending⟩
  | false =>
    cases hl : c.link? with
    | some m =>
      by_cases hr : ∃ l, c = .resetPart l
      · obtain ⟨l, rfl⟩ := hr
        exact exec_resetPart_pending l s
      · obtain ⟨-, -, -, hpending⟩ := shell_eq_iff.mp (ownerTaken_shell c s)
        exact ⟨_, exec_eq_answer s hl (not_exists.mp hr), answer_pending m c hpending⟩
    | none =>
      have hother : (ofThePart c || c.link?.isSome) = false := by rw [hpart, hl]; rfl
      cases c with
      | powerOnReset straps => exact ⟨_, rfl, rfl⟩
      | addressCharacter l ch | dataCharacter l ch | frameGapTimeout l | replyComplete l | abandonedReplyStop l =>
        exact ⟨_, rfl, modLink_pending s l _⟩
      | _ => cases hother

end Sys2Proof.Machine
end

/-! ## RESET_PART, and what ends frames and replies -/
section

namespace Sys2Proof.Machine

/-! ### A change of one link alone -/

theorem modLink_onlyLinks (s : State) (m : Manager) (f : Link → Link) : OnlyLinks s (s.modLink m f) := modLink_eq s m f

/-- What a row that changes one link alone leaves (section 10). -/
theorem modLink_reaches {o : Host.Outcome State Fault Refusal} {s : State} {m : Manager} {f : Link → Link} {k : Link}
    (ho : o = .next (s.modLink m f)) (hk : f (s.link m) = k) :
    ∃ t, o = .next t ∧ OnlyLinks s t ∧ (∀ j, j ≠ m → t.link j = s.link j) ∧ t.link m = k :=
  ⟨_, ho, modLink_onlyLinks s m f, fun _ hj => modLink_other s hj f, (modLink_same s m f).trans hk⟩

/-! ### RESET_PART (R168) -/

theorem resetBlocks_link (s : State) (m : Manager) : (resetBlocks s).link m = s.link m := by cases m <;> rfl

theorem otherManager_ne (m : Manager) : otherManager m ≠ m := by cases m <;> nofun

theorem eq_otherManager : ∀ {m l : Manager}, m ≠ l → m = otherManager l
  | .A, .B, _ | .B, .A, _ => rfl
  | .A, .A, h | .B, .B, h => absurd rfl h

/-- The part after a RESET_PART that is not void. -/
def partReset (l : Manager) (s : State) : State :=
  ((resetBlocks s).modLink l (Link.resetCarrying (.resetPart l))).modLink (otherManager l) Link.resetByPart

theorem exec_resetPart {l : Manager} {s : State} (h : ¬ Voided l (.resetPart l) s) :
    exec (.resetPart l) s = .next (partReset l s) :=
  congrArg Host.Outcome.next (unlessVoid_taken (Bool.eq_false_iff.mpr (mt voids_iff.mp h)) _)

theorem partReset_carrying (l : Manager) (s : State) :
    (partReset l s).link l = (s.link l).resetCarrying (.resetPart l) := by
  rw [partReset, modLink_other _ (otherManager_ne l).symm, modLink_same, resetBlocks_link]

theorem partReset_other {l m : Manager} (h : m ≠ l) (s : State) : (partReset l s).link m = (s.link m).resetByPart := by
  rw [eq_otherManager h, partReset, modLink_same, modLink_other _ (otherManager_ne l), resetBlocks_link]

/-- Whatever its link was doing, RESET_PART leaves it DESELECTED with its frame count (R168, R169). -/
theorem resetCarrying_kept (c : Instr) (l : Link) :
    (l.resetCarrying c).selection = .deselected ∧ (l.resetCarrying c).frameCount = l.frameCount := by
  unfold Link.resetCarrying
  split
  · next ov _ =>
    dsimp only
    split
    · split <;> cases ov <;> exact ⟨rfl, rfl⟩
    · exact ⟨rfl, rfl⟩
  · exact ⟨rfl, rfl⟩

/-- The link that handed RESET_PART on: the overrun counted, and the reply begun when the command came individually (R160, R168). -/
theorem resetCarrying_handed {c : Instr} {l : Link} {ov : Bool} (h : l.intake = .handing c ov) :
    l.resetCarrying c =
      (let counted : Link := { l.resetByPart with
        lastReply := some (Reply.plain .ok), dropped := none
        errorCount := if ov then satInc l.errorCount else l.errorCount
        lastError := if ov then some .overrun else l.lastError }
      if l.selection = .selected then
        { counted with intake := .replying false, tx := .sending (Reply.plain .ok).chars } else counted) := by
  unfold Link.resetCarrying
  split
  · next k o hk =>
    obtain ⟨rfl, rfl⟩ := Intake.handing.inj (hk.symm.trans h)
    rw [if_pos rfl]
    cases o <;> rfl
  · next hn => exact absurd h (hn c ov)

theorem resetByPart_dropped {l : Link} {c : Instr} {ov : Bool} (h : l.intake = .handing c ov) :
    l.resetByPart.dropped = some c := by
  simp [Link.resetByPart, Link.dropHanded, h]

/-- Settles O4: the blocks by their reset values, the carrying link by `resetCarrying`, the other by `resetByPart`. -/
theorem resetPartKeepsWhatItNames : Obligations.ResetPartKeepsWhatItNames := by
  intro l s hvoid
  have hreset : AtReset (partReset l s) := ((resetBlocks_atReset s).modLink l _).modLink (otherManager l) _
  have hblocks : (partReset l s).straps = s.straps ∧ (partReset l s).stamp = s.stamp
      ∧ (partReset l s).tap = (resetBlocks s).tap ∧ (partReset l s).vrd = (resetBlocks s).vrd := by
    unfold partReset
    rw [modLink_straps, modLink_straps, modLink_stamp, modLink_stamp, modLink_tap, modLink_tap, modLink_vrd, modLink_vrd]
    exact ⟨rfl, rfl, rfl, rfl⟩
  obtain ⟨hstraps, hstamp, htap, hvrd⟩ := hblocks
  refine ⟨_, exec_resetPart hvoid, hreset, hstraps, hstamp, ?_⟩
  rw [htap, hvrd]
  refine ⟨rfl, rfl, rfl, rfl, rfl, fun m => ?_, fun m hm => ?_, fun ov hov => ?_⟩
  · by_cases hm : m = l
    · subst hm
      obtain ⟨hsel, hframes⟩ := resetCarrying_kept (.resetPart m) (s.link m)
      rw [partReset_carrying]
      exact ⟨hsel, resetCarrying_buffer _ _, hframes⟩
    · rw [partReset_other hm]
      exact ⟨rfl, rfl, rfl⟩
  · unfold Voided
    rw [partReset_other hm]
    exact ⟨rfl, rfl, rfl, rfl, fun c ov hc => ⟨resetByPart_dropped hc, nofun⟩⟩
  · rw [partReset_carrying, resetCarrying_handed hov]
    refine ⟨by dsimp only; split <;> rfl, by dsimp only; split <;> rfl, fun hsel => ?_, fun hsel => ?_⟩
    · rw [if_pos hsel]
      exact ⟨rfl, rfl⟩
    · rw [if_neg (by rw [hsel]; nofun)]
      refine ⟨rfl, fun cs => ?_⟩
      simp only [Link.resetByPart]
      split
      · nofun
      · next hidle => exact hidle cs

/-! ### The gap of a frame, and the end of a reply (R161, R162, R164) -/

theorem gapTimeout_due {now : Clock} {l : Link} :
    (if gapDue now l then l.gapTimeout else l) = (match l.intake with
      | .receiving _ => if 21 ≤ (now - l.lastTaken).toNat then
          { l with intake := .waiting, errorCount := satInc l.errorCount, lastError := some .gap } else l
      | .skipping => if 21 ≤ (now - l.lastTaken).toNat then { l with intake := .waiting } else l
      | _ => l) := by
  have hdue : gapDue now l = true ↔ 21 ≤ (now - l.lastTaken).toNat := by
    simp only [gapDue, decide_eq_true_eq]; rfl
  simp only [hdue, Link.gapTimeout]
  cases l.intake with
  | receiving | skipping => rfl
  | _ => exact ite_self _

theorem replyDone_eq (l : Link) : l.replyDone = (match l.intake with
    | .replying skip => { l with
        tx := .idle
        intake := if l.selection = .deselected then .deselected else if skip then .skipping else .waiting }
    | _ => l) := by
  unfold Link.replyDone
  cases l.intake with
  | replying skip => cases l.selection <;> rfl
  | _ => rfl

/-- Settles O23: each row by the equation of its link. -/
theorem gapsAndRepliesEnd : Obligations.GapsAndRepliesEnd := fun _ _ =>
  ⟨modLink_reaches rfl gapTimeout_due, modLink_reaches rfl (replyDone_eq _), modLink_reaches rfl rfl⟩

end Sys2Proof.Machine
end

/-! ## Characters on a link: what the intake makes of them, and what becomes of an answer -/
section

namespace Sys2Proof.Machine

variable {m : Manager} {stn : BitVec 6} {l : Link}

/-! ### The intake takes a character (R157, R159, R161) -/

/-- The intake makes nothing of a data character in these states (Table 10.1). -/
def Intake.ignoresData : Intake → Bool
  | .deselected | .skipping | .replying _ => true
  | .waiting | .receiving _ | .handing _ _ => false

/-- The time of the last of the characters taken is kept (R161). -/
def Link.timedBy (b : List RxChar) (l : Link) : Link :=
  match b.getLast? with
  | none => l
  | some c => { l with lastTaken := c.time }

theorem timedBy_cons (c : RxChar) (b : List RxChar) (l : Link) :
    Link.timedBy b { l with lastTaken := c.time } = l.timedBy (c :: b) := by
  cases b with
  | nil => rfl
  | cons d b => simp [Link.timedBy, List.getLast?_cons]

theorem timedBy_append (b : List RxChar) (c : RxChar) (l : Link) : l.timedBy (b ++ [c]) = { l with lastTaken := c.time } := by
  simp [Link.timedBy]

theorem timedBy_intake (b : List RxChar) (l : Link) : (l.timedBy b).intake = l.intake := by
  unfold Link.timedBy; split <;> rfl

theorem ignoresData_not_handing {i : Intake} (h : i.ignoresData = true) : i.isHanding = false := by
  cases i with
  | handing => cases h
  | _ => rfl

theorem take_data {c : RxChar} (hc : c.address = false) :
    l.take m stn c = Link.takeData m c { l with lastTaken := c.time } := by
  rw [Link.take, hc, if_neg Bool.false_ne_true]

theorem take_address {c : RxChar} (hc : c.address = true) :
    l.take m stn c = Link.takeAddress stn c.value { l with lastTaken := c.time } := by
  rw [Link.take, if_pos hc]

theorem take_ignored {c : RxChar} (hl : l.intake.ignoresData = true) (hc : c.address = false) :
    l.take m stn c = { l with lastTaken := c.time } := by
  rw [take_data hc]
  unfold Link.takeData
  dsimp only
  split
  · next h => rw [h] at hl; cases hl
  · next h => rw [h] at hl; cases hl
  all_goals rfl

/-! ### The characters of the buffer (R157) -/

theorem drain_handing (hl : l.intake.isHanding = true) (b : List RxChar) :
    Link.drain m stn b l = { l with buffer := b } := by
  cases b with
  | nil => rfl
  | cons c b => rw [Link.drain, if_pos hl]

theorem drain_cons (hl : l.intake.isHanding = false) (c : RxChar) (b : List RxChar) :
    Link.drain m stn (c :: b) l = Link.drain m stn b (l.take m stn c) := by
  rw [Link.drain, hl, if_neg Bool.false_ne_true]

theorem drain_single (hl : l.intake.isHanding = false) (c : RxChar) :
    Link.drain m stn [c] l = { l.take m stn c with buffer := [] } := by
  rw [drain_cons hl, drain_nil]

/-- Data characters that the intake makes nothing of leave their time alone. -/
theorem drain_ignored (hl : l.intake.ignoresData = true) {held : List RxChar} (hheld : ∀ d ∈ held, d.address = false)
    (b : List RxChar) : Link.drain m stn (held ++ b) l = Link.drain m stn b (l.timedBy held) := by
  induction held generalizing l with
  | nil => rfl
  | cons c held ih =>
    obtain ⟨hc, hrest⟩ := List.forall_mem_cons.mp hheld
    rw [List.cons_append, drain_cons (ignoresData_not_handing hl), take_ignored hl hc, ih (by exact hl) hrest, timedBy_cons]

/-! ### A character completes on a link (R157) -/

variable {now : Clock} {ch : LinkChar}

theorem txe_eq_false (h : l.tx = .idle) : l.txe = false := by simp [Link.txe, h]

/-- While the link transmits, a character that is no address character is dropped. -/
theorem receive_dropped (hc : ch.isAddress = false) (htx : l.tx ≠ .idle) : l.receive m stn now ch = l := by
  have hdrop : l.txe = true ∧ ¬ (judgeChar now ch).address = true := by simp [Link.txe, htx, judgeChar, hc]
  unfold Link.receive
  exact if_pos hdrop

/-- A character that is not dropped: an address character, or any other while the link does not transmit. -/
def Heard (l : Link) (ch : LinkChar) : Prop := ch.isAddress = true ∨ l.tx = .idle

theorem not_dropped (h : Heard l ch) : ¬ (l.txe = true ∧ ¬ (judgeChar now ch).address = true) := by
  rintro ⟨htxe, haddress⟩
  rcases h with h | h
  · exact haddress h
  · rw [txe_eq_false h] at htxe; cases htxe

theorem receive_full (h : Heard l ch) (hfull : l.buffer.length = 2) : l.receive m stn now ch = l.overrun := by
  unfold Link.receive
  exact (if_neg (not_dropped h)).trans (if_pos hfull.ge)

theorem receive_held (h : Heard l ch) (hroom : l.buffer.length < 2) :
    l.receive m stn now ch = Link.drain m stn (l.buffer ++ [judgeChar now ch]) l := by
  unfold Link.receive
  exact (if_neg (not_dropped h)).trans (if_neg (Nat.not_le.mpr hroom))

theorem receive_handing (h : Heard l ch) (hroom : l.buffer.length < 2) (hl : l.intake.isHanding = true) :
    l.receive m stn now ch = { l with buffer := l.buffer ++ [judgeChar now ch] } := by
  rw [receive_held h hroom, drain_handing hl]

theorem receive_taken (h : Heard l ch) (hempty : l.buffer = []) (hl : l.intake.isHanding = false) :
    l.receive m stn now ch = { l.take m stn (judgeChar now ch) with buffer := [] } := by
  rw [receive_held h (by rw [hempty]; exact Nat.zero_lt_two), hempty, List.nil_append, drain_single hl]

/-! ### An address character (R158, R162) -/

theorem selectionOf_eq (stn : BitVec 6) (v : Byte) : selectionOf stn v =
    if v.toNat = 63 then .broadcast else if v.toNat = stn.toNat then .selected else .deselected := by
  have h : v = 63 ↔ v.toNat = 63 := by rw [← BitVec.toNat_inj]; rfl
  simp only [selectionOf, h]

theorem readyIntake_eq (x : Selection) : readyIntake x = if x = .deselected then .deselected else .waiting := by
  cases x <;> rfl

theorem abandon_of_tx_idle (htx : l.tx = .idle) (hl : ∀ f, l.intake ≠ .receiving f) : l.abandon = l := by
  unfold Link.abandon
  split
  · next f h => exact absurd h (hl f)
  · rw [htx]; cases l; cases htx; rfl
  all_goals rfl

theorem not_handing_iff {i : Intake} : i.isHanding = false ↔ ∀ c ov, i ≠ .handing c ov := by
  cases i <;> simp [Intake.isHanding]

/-- Settles O21: an address character that is taken at once abandons what the intake was in, and sets the selection. -/
theorem addressCharacterSelects : Obligations.AddressCharacterSelects := by
  intro l ch s hch hempty hhanding
  have hlink := receive_taken (m := l) (stn := s.straps.stn) (now := s.clock) (.inl hch) hempty (not_handing_iff.mpr hhanding)
  rw [take_address hch, Link.takeAddress, selectionOf_eq, readyIntake_eq] at hlink
  refine ⟨_, rfl, modLink_onlyLinks s l _, fun k hk => modLink_other s hk _, ?_⟩
  rw [modLink_same, hlink]
  unfold Link.abandon
  refine ⟨rfl, rfl, rfl, ?_⟩
  cases (s.link l).intake with
  | receiving f =>
    dsimp only
    cases f.damaged with
    | false => exact ⟨rfl, rfl, rfl, rfl⟩
    | true => exact ⟨rfl, rfl, satInc_toNat _, rfl⟩
  | replying => exact ⟨rfl, rfl, rfl⟩
  | _ => exact ⟨rfl, rfl, rfl⟩

end Sys2Proof.Machine
end

/-! ## An owner's answer leaves HANDING -/
section

namespace Sys2Proof.Machine

variable {m : Manager} {stn : BitVec 6} {l : Link} {r : Reply} {ov : Bool}

/-! ### The reply recorded, the overrun counted, and the intake that the selection gives (R160, R163) -/

/-- The link that leaves HANDING, before its intake moves: the reply recorded and a marked overrun counted. -/
def Link.answerCounted (r : Reply) (ov : Bool) (l : Link) : Link := { l with
  lastReply := some r
  errorCount := if ov then satInc l.errorCount else l.errorCount
  lastError := if ov then some .overrun else l.lastError }

/-- The intake after HANDING, before the held characters are taken. -/
def answeredIntake (x : Selection) (ov : Bool) : Intake :=
  match x with
  | .selected => .replying ov
  | .broadcast => if ov then .skipping else .waiting
  | .deselected => .deselected

/-- The link that leaves HANDING, before the held characters are taken. -/
def Link.leaving (r : Reply) (ov : Bool) (l : Link) : Link :=
  { l.answerCounted r ov with intake := answeredIntake l.selection ov }

theorem leaveHanding_eq : l.leaveHanding m stn r ov = Link.beginReply r (Link.drain m stn l.buffer (l.leaving r ov)) := by
  cases ov <;> rfl

theorem answeredIntake_not_handing (x : Selection) (ov : Bool) : (answeredIntake x ov).isHanding = false := by
  cases x <;> cases ov <;> rfl

theorem answeredIntake_not_receiving (x : Selection) (ov : Bool) (f : Frame) : answeredIntake x ov ≠ .receiving f := by
  cases x <;> cases ov <;> nofun

/-! ### No address character held -/

theorem timedBy_dropsBuffer (b : List RxChar) (l : Link) :
    ({ l.timedBy b with buffer := [] } : Link) = Link.timedBy b { l with buffer := [] } := by
  unfold Link.timedBy; split <;> rfl

theorem beginReply_timedBy (b : List RxChar) (l : Link) : (l.timedBy b).beginReply r = (l.beginReply r).timedBy b := by
  unfold Link.timedBy
  split
  · rfl
  · obtain ⟨_, _, intake, _, _, _, _, _, _, _⟩ := l
    cases intake <;> rfl

/-- Where the intake that follows HANDING makes nothing of data characters, those held leave their time alone. -/
theorem leaveHanding_ignores (hintake : (answeredIntake l.selection ov).ignoresData = true)
    (hheld : ∀ d ∈ l.buffer, d.address = false) :
    l.leaveHanding m stn r ov = (Link.beginReply r { l.leaving r ov with buffer := [] }).timedBy l.buffer := by
  have hdrain := drain_ignored (m := m) (stn := stn) (l := l.leaving r ov) hintake hheld []
  rw [List.append_nil, drain_nil, timedBy_dropsBuffer] at hdrain
  rw [leaveHanding_eq, hdrain, beginReply_timedBy]

/-! ### An address character held (R162) -/

theorem take_address_idle {c : RxChar} (hc : c.address = true) (htx : l.tx = .idle) (hl : ∀ f, l.intake ≠ .receiving f) :
    l.take m stn c = { l with
      lastTaken := c.time, selection := selectionOf stn c.value, intake := readyIntake (selectionOf stn c.value) } := by
  have hidle : ({ l with lastTaken := c.time } : Link).abandon = { l with lastTaken := c.time } := abandon_of_tx_idle htx hl
  rw [take_address hc, Link.takeAddress, hidle]

theorem drain_to_address {held : List RxChar} {c : RxChar} (hheld : ∀ d ∈ held, d.address = false) (hc : c.address = true)
    (htx : l.tx = .idle) (hl : ∀ f, l.intake ≠ .receiving f)
    (hintake : l.intake.ignoresData = true ∨ held = [] ∧ l.intake.isHanding = false) :
    Link.drain m stn (held ++ [c]) l = { l with
      lastTaken := c.time, buffer := [], selection := selectionOf stn c.value
      intake := readyIntake (selectionOf stn c.value) } := by
  rcases hintake with hignores | ⟨rfl, hhanding⟩
  · have hsame : (l.timedBy held).intake = l.intake := timedBy_intake held l
    have htimed : (l.timedBy held).tx = .idle := by rw [← htx]; unfold Link.timedBy; split <;> rfl
    rw [drain_ignored hignores hheld, drain_single (by rw [hsame]; exact ignoresData_not_handing hignores),
      take_address_idle hc htimed (by rw [hsame]; exact hl)]
    unfold Link.timedBy; split <;> rfl
  · rw [List.nil_append, drain_single hhanding, take_address_idle hc htx hl]

theorem beginReply_ready (h : l.intake = readyIntake l.selection) : l.beginReply r = l := by
  unfold Link.beginReply
  split
  · next k hk => rw [hk] at h; cases hsel : l.selection <;> rw [hsel] at h <;> cases h
  · rfl

/-- A held address character abandons the reply before it is begun, and sets the selection (R162). -/
theorem leaveHanding_abandoned {held : List RxChar} {c : RxChar} (hbuffer : l.buffer = held ++ [c])
    (hheld : ∀ d ∈ held, d.address = false) (hc : c.address = true) (htx : l.tx = .idle)
    (hintake : (answeredIntake l.selection ov).ignoresData = true ∨ held = []) :
    l.leaveHanding m stn r ov = { l.answerCounted r ov with
      lastTaken := c.time, buffer := [], selection := selectionOf stn c.value
      intake := readyIntake (selectionOf stn c.value) } := by
  have hdrain := drain_to_address (m := m) (stn := stn) (l := l.leaving r ov) hheld hc htx
    (answeredIntake_not_receiving _ ov) (hintake.imp id fun h => ⟨h, answeredIntake_not_handing _ ov⟩)
  rw [leaveHanding_eq, hbuffer, hdrain]
  exact beginReply_ready rfl

/-! ### The link by its selection (R158, R160, R163, R164) -/

theorem leaveHanding_selected (hsel : l.selection = .selected) (hheld : ∀ d ∈ l.buffer, d.address = false) :
    l.leaveHanding m stn r ov = Link.timedBy l.buffer { l.answerCounted r ov with
      buffer := [], intake := .replying ov, tx := .sending r.chars } := by
  rw [leaveHanding_ignores (by rw [hsel]; rfl) hheld, Link.leaving, hsel]
  rfl

theorem leaveHanding_overrun (hsel : l.selection = .broadcast) (hheld : ∀ d ∈ l.buffer, d.address = false) :
    l.leaveHanding m stn r true = Link.timedBy l.buffer { l.answerCounted r true with buffer := [], intake := .skipping } := by
  rw [leaveHanding_ignores (by rw [hsel]; rfl) hheld, Link.leaving, hsel]
  rfl

theorem leaveHanding_broadcast (hsel : l.selection = .broadcast) (hempty : l.buffer = []) :
    l.leaveHanding m stn r false = { l.answerCounted r false with buffer := [], intake := .waiting } := by
  rw [leaveHanding_eq, hempty, drain_nil, Link.leaving, hsel]
  rfl

/-- A character held in BROADCAST is taken as the LEN it is (R159, R163). -/
theorem leaveHanding_broadcast_len {c : RxChar} (hsel : l.selection = .broadcast) (hheld : l.buffer = [c])
    (hc : c.address = false) (hsound : c.damaged = false) (hlo : 2 ≤ c.value.toNat) (hhi : c.value.toNat ≤ 60) :
    l.leaveHanding m stn r false = { l.answerCounted r false with
      buffer := [], lastTaken := c.time, intake := .receiving (Frame.start c.value) } := by
  rw [leaveHanding_eq, hheld, drain_single (answeredIntake_not_handing _ _), Link.leaving, hsel, take_data hc]
  have htaken (k : Link) (hk : k.intake = .waiting) : k.takeData m c = { k with intake := .receiving (Frame.start c.value) } := by
    simp [Link.takeData, hk, hsound, hlo, hhi]
  rw [htaken _ rfl]
  rfl

theorem answer_link {c : Instr} {s t : State} (hlink : t.link m = s.link m) (hvoid : ¬ Voided m c s) :
    (answer m c s (t, r)).link m = Link.deliver m t.straps.stn c r (s.link m) := by
  rw [answer_taken hvoid, modLink_same, hlink]

/-- Settles O17: `deliver` by the held characters and the selection, a void row by its mark, and each row by its owner. -/
theorem answerReachesTheLink : Obligations.AnswerReachesTheLink := by
  refine ⟨?_, fun m c s hl hvoid => ?_, fun m c s hl hr => ?_⟩
  · intro m c s t r hlink hstraps u l
    refine ⟨fun hvoid => unlessVoid_void (voids_iff.mpr hvoid) _, fun hvoid => ?_⟩
    have hu : u.link m = Link.deliver m t.straps.stn c r l := answer_link hlink hvoid
    have hmod : u = t.modLink m (Link.deliver m t.straps.stn c r) := answer_taken hvoid _
    refine ⟨hmod ▸ modLink_onlyLinks t m _, fun k hk => hmod ▸ modLink_other t hk _,
      fun hn => hu.trans (deliver_unhanded m _ r hn), ?_⟩
    intro ov hov counted taken
    rw [hu, deliver_handed m _ r hov]
    refine ⟨fun hdata => ⟨fun hsel => leaveHanding_selected hsel hdata, fun hsel hov => ?_, fun hsel hov hempty => ?_,
      fun ch hsel hov hheld hsound hlo hhi => ?_⟩, fun held ch hbuffer hheld hch htx hsel => ?_⟩
    · subst hov; exact leaveHanding_overrun hsel hdata
    · subst hov; exact leaveHanding_broadcast hsel hempty
    · subst hov
      rw [leaveHanding_broadcast_len hsel hheld (hdata ch (by rw [hheld]; exact List.mem_singleton_self ch)) hsound hlo hhi]
      show _ = Link.timedBy l.buffer _
      rw [hheld]; rfl
    · have hintake : (answeredIntake l.selection ov).ignoresData = true ∨ held = [] := by
        rcases hsel with hsel | ⟨hsel, rfl | rfl⟩
        · rw [hsel]; exact .inl rfl
        · exact .inr rfl
        · rw [hsel]; exact .inl rfl
      rw [leaveHanding_abandoned hbuffer hheld hch htx hintake, hstraps, selectionOf_eq, readyIntake_eq]
      show _ = Link.timedBy l.buffer _
      rw [hbuffer, timedBy_append]
      rfl
  · by_cases hr : ∃ k, c = .resetPart k
    · obtain ⟨k, rfl⟩ := hr
      cases hl
      exact congrArg Host.Outcome.next (unlessVoid_void (voids_iff.mpr hvoid) _)
    · exact (exec_eq_answer s hl (not_exists.mp hr)).trans
        (congrArg Host.Outcome.next (unlessVoid_void (voids_iff.mpr hvoid) _))
  · obtain ⟨hstraps, hA, hB, -⟩ := shell_eq_iff.mp (ownerTaken_shell c s)
    exact ⟨_, _, exec_eq_answer s hl hr, hA, hB, hstraps⟩

end Sys2Proof.Machine
end

/-! ## Data characters by the state of the intake, and a frame that reaches its owner -/
section

namespace Sys2Proof.Machine

variable {m : Manager} {stn : BitVec 6} {l : Link} {now : Clock} {ch : LinkChar}

/-! ### A data character taken at once (R157, Table 10.1) -/

theorem frameEnded_buffer (f : Frame) (l : Link) : (l.frameEnded m f).buffer = l.buffer := by
  unfold Link.frameEnded Link.frameWhole
  split
  · rfl
  split
  · rfl
  dsimp only
  split
  · rfl
  · exact beginReply_buffer _ _
  · exact beginReply_buffer _ _

theorem takeData_buffer (c : RxChar) (l : Link) : (l.takeData m c).buffer = l.buffer := by
  unfold Link.takeData
  split
  · split
    · rfl
    · split <;> rfl
  · dsimp only
    split
    · exact frameEnded_buffer _ _
    · rfl
  all_goals rfl

theorem receive_data (hch : ch.isAddress = false) (htx : l.tx = .idle) (hempty : l.buffer = [])
    (hl : l.intake.isHanding = false) :
    l.receive m stn now ch = Link.takeData m (judgeChar now ch) { l with lastTaken := now } := by
  have hbuffer : (Link.takeData m (judgeChar now ch) { l with lastTaken := now }).buffer = [] :=
    (takeData_buffer _ _).trans hempty
  rw [receive_taken (.inr htx) hempty hl, take_data hch, ← hbuffer]
  rfl

theorem receive_ignored (hch : ch.isAddress = false) (htx : l.tx = .idle) (hempty : l.buffer = [])
    (hl : l.intake.ignoresData = true) : l.receive m stn now ch = { l with lastTaken := now } := by
  rw [receive_taken (.inr htx) hempty (ignoresData_not_handing hl), take_ignored hl hch, ← hempty]
  rfl

/-- In WAITING the character is a LEN, or it is counted and begins SKIPPING (R159, R160). -/
theorem receive_waiting (hch : ch.isAddress = false) (htx : l.tx = .idle) (hempty : l.buffer = [])
    (hin : l.intake = .waiting) :
    l.receive m stn now ch = if ch.damaged = false ∧ 2 ≤ ch.data.toNat ∧ ch.data.toNat ≤ 60 then
        { l with lastTaken := now, intake := .receiving (Frame.start ch.data) }
      else { Link.countError (if ch.damaged then .character else .badLen) { l with lastTaken := now } with
        intake := .skipping } := by
  rw [receive_data hch htx hempty (by rw [hin]; rfl), Link.takeData]
  dsimp only [judgeChar]
  rw [hin]
  by_cases hdamaged : ch.damaged = true
  · simp [hdamaged, Link.countError]
  · by_cases hlen : 2 ≤ ch.data.toNat ∧ ch.data.toNat ≤ 60
    · simp [hdamaged, hlen]
    · simp [hdamaged, hlen, Link.countError]

/-- In RECEIVING it joins the frame, and as the last character ends it (R159, R160). -/
theorem receive_receiving {f : Frame} (hch : ch.isAddress = false) (htx : l.tx = .idle) (hempty : l.buffer = [])
    (hin : l.intake = .receiving f) :
    let g := f.extend (judgeChar now ch)
    l.receive m stn now ch = if g.count = g.len then Link.frameEnded m g { l with lastTaken := now }
      else { l with lastTaken := now, intake := .receiving g } := by
  rw [receive_data hch htx hempty (by rw [hin]; rfl), Link.takeData]
  dsimp only
  rw [hin]

/-! ### The last character of a frame (R160, R163) -/

theorem frameEnded_damaged {f : Frame} (h : f.damaged = true) :
    l.frameEnded m f = { l.countError .character with intake := .waiting } := by
  unfold Link.frameEnded; exact if_pos h

theorem frameEnded_unbalanced {f : Frame} (h : f.damaged = false) (hsum : f.sum ≠ 0) :
    l.frameEnded m f = { l.countError .check with intake := .waiting } := by
  unfold Link.frameEnded; rw [h, if_neg Bool.false_ne_true, if_pos hsum]

theorem frameEnded_whole {f : Frame} (h : f.damaged = false) (hsum : f.sum = 0) : l.frameEnded m f = l.frameWhole m f := by
  unfold Link.frameEnded; rw [h, if_neg Bool.false_ne_true, if_neg (not_not.mpr hsum)]

section
variable {f : Frame}

theorem frameWhole_command {c : Instr}
    (h : decodeFrame m (f.chars.headD 0) ((f.chars.drop 1).take (f.len - 2)) = .command c) :
    l.frameWhole m f = { l with frameCount := l.frameCount + 1, intake := .handing c false, dropped := none } := by
  unfold Link.frameWhole
  dsimp only
  rw [h]

theorem frameWhole_unknown (h : decodeFrame m (f.chars.headD 0) ((f.chars.drop 1).take (f.len - 2)) = .unknown) :
    l.frameWhole m f = (Link.answered (Reply.plain .unknown) false { l with frameCount := l.frameCount + 1 }).beginReply
      (Reply.plain .unknown) := by
  unfold Link.frameWhole
  dsimp only
  rw [h]

theorem frameWhole_length (h : decodeFrame m (f.chars.headD 0) ((f.chars.drop 1).take (f.len - 2)) = .length) :
    l.frameWhole m f = (Link.answered (Reply.plain .length) false { l with frameCount := l.frameCount + 1 }).beginReply
      (Reply.plain .length) := by
  unfold Link.frameWhole
  dsimp only
  rw [h]

end

/-- A frame that its link answers itself: with the reply sent where SELECTED, and with none in BROADCAST (R163). -/
theorem answered_begun (r : Reply) (l : Link) :
    ((l.answered r false).beginReply r).selection = l.selection
    ∧ (l.selection = .selected → (l.answered r false).beginReply r = { l with
      lastReply := some r, intake := .replying false, tx := .sending r.chars })
    ∧ (l.selection = .broadcast → (l.answered r false).beginReply r = { l with
      lastReply := some r, intake := .waiting }) := by
  refine ⟨?_, fun h => ?_, fun h => ?_⟩
  · unfold Link.beginReply; split <;> rfl
  · simp [Link.answered, Link.beginReply, h]
  · simp [Link.answered, Link.beginReply, h]

/-! ### Characters held, and a third that is lost (R157, R160) -/

theorem overrun_eq (l : Link) : l.overrun = (match l.intake with
    | .waiting | .receiving _ => { l with
        intake := .skipping, errorCount := satInc l.errorCount, lastError := some .overrun }
    | .handing k _ => { l with intake := .handing k true }
    | .deselected | .skipping | .replying _ => l) := by
  unfold Link.overrun
  cases l.intake <;> rfl

/-- What the statement says of the link that takes a character in WAITING. -/
theorem taken_waiting (hempty : l.buffer = []) :
    let isLen := ch.damaged = false ∧ 2 ≤ ch.data.toNat ∧ ch.data.toNat ≤ 60
    let kind : ErrorKind := if ch.damaged then .character else .badLen
    let k : Link := if isLen then { l with lastTaken := now, intake := .receiving (Frame.start ch.data) }
      else { Link.countError kind { l with lastTaken := now } with intake := .skipping }
    k.selection = l.selection ∧ k.buffer = [] ∧ k.lastTaken = now
      ∧ if isLen then k.intake = .receiving (Frame.start ch.data) ∧ k.errorCount = l.errorCount
        else k.intake = .skipping ∧ k.errorCount.toNat = min (l.errorCount.toNat + 1) 65535 ∧ k.lastError = some kind := by
  dsimp only
  split
  · exact ⟨rfl, hempty, rfl, rfl, rfl⟩
  · exact ⟨rfl, hempty, rfl, rfl, satInc_toNat _, rfl⟩

/-- What the statement says of the link that takes a character in RECEIVING, with which the frame is `g`. -/
theorem taken_receiving (g : Frame) (l : Link) :
    let k : Link := if g.count = g.len then l.frameEnded m g else { l with intake := .receiving g }
    let discarded (e : ErrorKind) : Link :=
      { l with intake := .waiting, errorCount := satInc l.errorCount, lastError := some e }
    let whole : Link := { l with frameCount := l.frameCount + 1 }
    let answered (r : Reply) : Prop :=
      (l.selection = .selected → k = { whole with
        lastReply := some r, intake := .replying false, tx := .sending r.chars })
      ∧ (l.selection = .broadcast → k = { whole with lastReply := some r, intake := .waiting })
    k.selection = l.selection ∧
      if g.count ≠ g.len then k = { l with intake := .receiving g }
      else if g.damaged = true then k = discarded .character
      else if g.sum ≠ 0 then k = discarded .check
      else match decodeFrame m (g.chars.headD 0) ((g.chars.drop 1).take (g.len - 2)) with
        | .command c => k = { whole with intake := .handing c false, dropped := none }
        | .unknown => answered { status := .unknown, data := [] }
        | .length => answered { status := .length, data := [] } := by
  intro k discarded whole answered
  by_cases hcount : g.count = g.len
  · have hk : k = l.frameEnded m g := if_pos hcount
    rw [if_neg (not_not.mpr hcount)]
    cases hdamaged : g.damaged with
    | true =>
      rw [frameEnded_damaged hdamaged] at hk
      rw [hk]
      exact ⟨rfl, rfl⟩
    | false =>
      rw [if_neg Bool.false_ne_true]
      by_cases hsum : g.sum = 0
      · rw [frameEnded_whole hdamaged hsum] at hk
        rw [if_neg (not_not.mpr hsum)]
        cases hdecoded : decodeFrame m (g.chars.headD 0) ((g.chars.drop 1).take (g.len - 2)) with
        | command c =>
          rw [hk, frameWhole_command hdecoded]
          exact ⟨rfl, rfl⟩
        | unknown =>
          rw [frameWhole_unknown hdecoded] at hk
          have hbegun := answered_begun (Reply.plain .unknown) whole
          rw [← hk] at hbegun
          exact hbegun
        | length =>
          rw [frameWhole_length hdecoded] at hk
          have hbegun := answered_begun (Reply.plain .length) whole
          rw [← hk] at hbegun
          exact hbegun
      · rw [frameEnded_unbalanced hdamaged hsum] at hk
        rw [if_pos hsum, hk]
        exact ⟨rfl, rfl⟩
  · have hk : k = { l with intake := .receiving g } := if_neg hcount
    rw [if_pos hcount, hk]
    exact ⟨rfl, rfl⟩

/-- Both rows of a character bring the receiver the character of their ten bits (R157). -/
theorem exec_character {c : Instr} (h : c = .dataCharacter m ch ∨ c = .addressCharacter m ch) (s : State) :
    exec c s = .next (s.modLink m (Link.receive m s.straps.stn s.clock ch)) := by
  rcases h with rfl | rfl <;> rfl

/-- Settles O22: a dropped character, a taken one by the intake, and in `Heard` order the held and the lost one. -/
theorem dataCharacterActsByState : Obligations.DataCharacterActsByState := by
  intro l ch s
  refine ⟨fun hch htx => ?_, fun hch htx hempty => ?_, fun c hc => ?_⟩
  · rw [exec_character (.inl rfl), modLink_unchanged (receive_dropped hch htx)]
  · refine ⟨_, exec_character (.inl rfl) s, modLink_onlyLinks s l _, fun k hk => modLink_other s hk _, ?_⟩
    rw [modLink_same]
    cases hin : (s.link l).intake with
    | deselected | skipping | replying =>
      rw [receive_ignored hch htx hempty (by rw [hin]; rfl)]
      exact ⟨rfl, rfl⟩
    | handing =>
      rw [receive_handing (.inr htx) (by rw [hempty]; exact Nat.zero_lt_two) (by rw [hin]; rfl), hempty, judgeChar, hch]
      exact ⟨rfl, rfl⟩
    | waiting =>
      rw [receive_waiting hch htx hempty hin]
      exact taken_waiting (now := s.clock) (ch := ch) hempty
    | receiving f =>
      rw [receive_receiving hch htx hempty hin]
      exact taken_receiving (f.extend (judgeChar s.clock ch)) { s.link l with lastTaken := s.clock }
  · have hheard : Heard (s.link l) ch := hc.elim (fun h => .inr h.2.1) fun h => .inl h.1
    have hrow := exec_character (hc.imp (fun h => h.2.2) fun h => h.2) s
    exact ⟨fun k ov hin hroom => modLink_reaches hrow (receive_handing hheard hroom (by rw [hin]; rfl)),
      fun hfull => modLink_reaches hrow ((receive_full hheard hfull).trans (overrun_eq _))⟩

end Sys2Proof.Machine
end

/-! ## Frames of Table 11.5, from and to their bytes -/
section

namespace Sys2Proof.Machine

/-! ### Every command has its frame -/

/-- Row by row of Table 11.5; what arrives in no frame has neither a link nor a frame. -/
theorem every_frame_round_trips (i : Instr) : Laws.FrameRoundTrip.Statement i := by
  cases i
  case readSummary l => exact Laws.FrameRoundTrip.readSummary l
  case setStream l o => exact Laws.FrameRoundTrip.setStream l o
  case readStream l n => exact Laws.FrameRoundTrip.readStream l n
  case enableStream l n => exact Laws.FrameRoundTrip.enableStream l n
  case disableStream l n => exact Laws.FrameRoundTrip.disableStream l n
  case setPair l o => exact Laws.FrameRoundTrip.setPair l o
  case readPair l n => exact Laws.FrameRoundTrip.readPair l n
  case enablePair l n => exact Laws.FrameRoundTrip.enablePair l n
  case retirePair l n => exact Laws.FrameRoundTrip.retirePair l n
  case clearPair l n => exact Laws.FrameRoundTrip.clearPair l n
  case readEstimate l n => exact Laws.FrameRoundTrip.readEstimate l n
  case setSource l o => exact Laws.FrameRoundTrip.setSource l o
  case readSource l n => exact Laws.FrameRoundTrip.readSource l n
  case setThreshold l t v => exact Laws.FrameRoundTrip.setThreshold l t v
  case claim l => exact Laws.FrameRoundTrip.claim l
  case acknowledge l n => exact Laws.FrameRoundTrip.acknowledge l n
  case setVerdict l o => exact Laws.FrameRoundTrip.setVerdict l o
  case readVerdict l => exact Laws.FrameRoundTrip.readVerdict l
  case clearBoard l => exact Laws.FrameRoundTrip.clearBoard l
  case setProbe l m w => exact Laws.FrameRoundTrip.setProbe l m w
  case probeLine l a => exact Laws.FrameRoundTrip.probeLine l a
  case readProbe l => exact Laws.FrameRoundTrip.readProbe l
  case setTime l s t => exact Laws.FrameRoundTrip.setTime l s t
  case readTime l => exact Laws.FrameRoundTrip.readTime l
  case resetPart l => exact Laws.FrameRoundTrip.resetPart l
  all_goals exact trivial

/-- What a frame of a command decodes to, and its length. -/
theorem decodeFrame_frameOf {l : Manager} {i : Instr} {f : Byte × List Byte} (hlink : i.link? = some l)
    (hframe : frameOf i = some f) : decodeFrame l f.1 f.2 = .command i ∧ f.2.length + 2 ≤ 60 := by
  have h := every_frame_round_trips i
  unfold Laws.FrameRoundTrip.Statement at h
  rw [hlink, hframe] at h
  exact h

/-! ### Operand bytes from the operands they spell (Table 11.7) -/

/-- Numbers of a frame's length have no other spelling than its bytes. -/
theorem leBytes_leNat (bs : List Byte) : leBytes bs.length (leNat bs) = bs := by
  induction bs with
  | nil => rfl
  | cons b bs ih =>
    have hlow : BitVec.ofNat 8 (b.toNat + 256 * leNat bs) = b :=
      BitVec.eq_of_toNat_eq (by rw [BitVec.toNat_ofNat]; have := b.isLt; omega)
    have hhigh : (b.toNat + 256 * leNat bs) / 256 = leNat bs := by have := b.isLt; omega
    rw [leNat, List.length_cons, leBytes, hlow, hhigh, ih]

theorem leNat_lt (bs : List Byte) : leNat bs < 256 ^ bs.length := by
  induction bs with
  | nil => exact Nat.one_pos
  | cons b bs ih => rw [leNat, List.length_cons, Nat.pow_succ]; have := b.isLt; omega

section
variable {ops rest : List Byte} {offset n : Nat}

/-- The bytes of the operand of `n` bytes at an offset. -/
theorem leBytes_operandAt {w : Nat} (hw : 256 ^ n ≤ 2 ^ w) (h : offset + n ≤ ops.length) :
    leBytes n (BitVec.ofNat w (operandAt ops offset n)).toNat = (ops.drop offset).take n := by
  have hlength : ((ops.drop offset).take n).length = n := by rw [List.length_take, List.length_drop]; omega
  have hlt := leNat_lt ((ops.drop offset).take n)
  rw [hlength] at hlt
  rw [BitVec.toNat_ofNat, operandAt, Nat.mod_eq_of_lt (hlt.trans_le hw)]
  calc leBytes n _ = leBytes ((ops.drop offset).take n).length (leNat ((ops.drop offset).take n)) := by rw [hlength]
    _ = _ := leBytes_leNat _

/-- A number read at an offset spells the bytes there, and the rest follows. -/
theorem number_spells {w : Nat} (hw : 256 ^ n ≤ 2 ^ w) (h : offset + n ≤ ops.length) :
    leBytes n (BitVec.ofNat w (operandAt ops offset n)).toNat ++ rest = ops.drop offset ↔ rest = ops.drop (offset + n) := by
  have hsplit : (ops.drop offset).take n ++ ops.drop (offset + n) = ops.drop offset := by
    rw [← List.drop_drop, List.take_append_drop]
  rw [leBytes_operandAt hw h]
  exact ⟨fun hrest => List.append_cancel_left (hrest.trans hsplit.symm), fun hrest => hrest ▸ hsplit⟩

theorem last_number_spells {w : Nat} (hw : 256 ^ n ≤ 2 ^ w) (h : offset + n = ops.length) :
    leBytes n (BitVec.ofNat w (operandAt ops offset n)).toNat = ops.drop offset := by
  rw [leBytes_operandAt hw h.le, List.take_of_length_le (by rw [List.length_drop]; omega)]

theorem byte_spells (h : offset + 1 ≤ ops.length) :
    byteAt ops offset :: rest = ops.drop offset ↔ rest = ops.drop (offset + 1) := by
  have hbyte : leBytes 1 (byteAt ops offset).toNat = [byteAt ops offset] := by
    rw [leBytes, leBytes, BitVec.ofNat_toNat, BitVec.setWidth_eq]
  have hspells := number_spells (rest := rest) (w := 8) (le_refl _) h
  rwa [← byteAt, hbyte] at hspells

end

theorem setStream_spells {ops : List Byte} (h : ops.length = 33) : (SetStreamOps.ofBytes ops).toBytes = ops := by
  change _ = ops.drop 0
  simp (disch := omega) only [SetStreamOps.toBytes, SetStreamOps.ofBytes, List.append_assoc, List.cons_append,
    List.nil_append, byte_spells, number_spells, Nat.reduceAdd]
  exact (List.drop_of_length_le h.le).symm

theorem setPair_spells {ops : List Byte} (h : ops.length = 34) : (SetPairOps.ofBytes ops).toBytes = ops := by
  change _ = ops.drop 0
  simp (disch := omega) only [SetPairOps.toBytes, SetPairOps.ofBytes, List.append_assoc, List.cons_append,
    List.nil_append, byte_spells, number_spells, Nat.reduceAdd]
  exact (List.drop_of_length_le h.le).symm

theorem setSource_spells {ops : List Byte} (h : ops.length = 5) : (SetSourceOps.ofBytes ops).toBytes = ops := by
  change _ = ops.drop 0
  simp (disch := omega) only [SetSourceOps.toBytes, SetSourceOps.ofBytes, byte_spells, Nat.reduceAdd]
  exact (List.drop_of_length_le h.le).symm

theorem setVerdict_spells {ops : List Byte} (h : ops.length = 15) : (SetVerdictOps.ofBytes ops).toBytes = ops := by
  change _ = ops.drop 0
  simp (disch := omega) only [SetVerdictOps.toBytes, SetVerdictOps.ofBytes, List.append_assoc, List.cons_append,
    List.nil_append, byte_spells, number_spells, last_number_spells, Nat.reduceAdd]

/-- An operand of one byte. -/
theorem one_byte_spells {ops : List Byte} (h : ops.length = 1) : [byteAt ops 0] = ops := by
  change _ = ops.drop 0
  rw [byte_spells h.ge]
  exact (List.drop_of_length_le h.le).symm

theorem two_bytes_spell {ops : List Byte} (h : ops.length = 2) : [byteAt ops 0, byteAt ops 1] = ops := by
  change _ = ops.drop 0
  rw [byte_spells (by omega), byte_spells (by omega)]
  exact (List.drop_of_length_le h.le).symm

theorem probe_mode_spells {ops : List Byte} (h : ops.length = 5) :
    byteAt ops 0 :: leBytes 4 (BitVec.ofNat 32 (operandAt ops 1 4)).toNat = ops := by
  change _ = ops.drop 0
  rw [byte_spells (by omega)]
  exact last_number_spells (by norm_num) h.symm

theorem time_spells {ops : List Byte} (h : ops.length = 6) :
    leBytes 4 (BitVec.ofNat 32 (operandAt ops 0 4)).toNat ++ leBytes 2 (BitVec.ofNat 16 (operandAt ops 4 2)).toNat = ops := by
  change _ = ops.drop 0
  rw [number_spells (by norm_num) (by omega)]
  exact last_number_spells (by norm_num) h.symm

/-! ### Every row of Table 11.5 -/

/-- The command that a row spells, from that link and from that frame. -/
def SpellsBack (l : Manager) (row : CommandRow) : Prop :=
  ∀ ops : List Byte, ops.length = row.operands →
    (row.command l ops).link? = some l ∧ frameOf (row.command l ops) = some (BitVec.ofNat 8 row.code, ops)

/-- A row whose frame is a CODE and what its operands spell. -/
theorem spellsBack_of {l : Manager} {row : CommandRow} (spelled : List Byte → List Byte)
    (hlink : ∀ ops, (row.command l ops).link? = some l)
    (hframe : ∀ ops, frameOf (row.command l ops) = some (BitVec.ofNat 8 row.code, spelled ops))
    (hspelled : ∀ {ops : List Byte}, ops.length = row.operands → spelled ops = ops) : SpellsBack l row :=
  fun ops h => ⟨hlink ops, by rw [hframe, hspelled h]⟩

theorem no_bytes_spell {ops : List Byte} (h : ops.length = 0) : [] = ops := (List.eq_nil_of_length_eq_zero h).symm

theorem commandRows_spell_back (l : Manager) : ∀ row ∈ commandRows, SpellsBack l row := by
  have none {code reply command} (hlink : ∀ ops, (command l ops).link? = some l)
      (hframe : ∀ ops, frameOf (command l ops) = some (BitVec.ofNat 8 code, [])) :
      SpellsBack l ⟨code, 0, reply, command⟩ :=
    spellsBack_of (fun _ => []) hlink hframe no_bytes_spell
  have one {code reply command} (hlink : ∀ ops, (command l ops).link? = some l)
      (hframe : ∀ ops, frameOf (command l ops) = some (BitVec.ofNat 8 code, [byteAt ops 0])) :
      SpellsBack l ⟨code, 1, reply, command⟩ :=
    spellsBack_of (fun ops => [byteAt ops 0]) hlink hframe one_byte_spells
  simp only [commandRows, List.forall_mem_cons]
  refine ⟨?readSummary, ?setStream, ?readStream, ?enableStream, ?disableStream, ?setPair, ?readPair, ?enablePair,
    ?retirePair, ?clearPair, ?readEstimate, ?setSource, ?readSource, ?setThreshold, ?claim, ?acknowledge, ?setVerdict,
    ?readVerdict, ?clearBoard, ?setProbe, ?probeLine, ?readProbe, ?setTime, ?readTime, ?resetPart, fun _ h => absurd h List.not_mem_nil⟩
  case setStream => exact spellsBack_of _ (fun _ => rfl) (fun _ => rfl) setStream_spells
  case setPair => exact spellsBack_of _ (fun _ => rfl) (fun _ => rfl) setPair_spells
  case setSource => exact spellsBack_of _ (fun _ => rfl) (fun _ => rfl) setSource_spells
  case setVerdict => exact spellsBack_of _ (fun _ => rfl) (fun _ => rfl) setVerdict_spells
  case setThreshold => exact spellsBack_of _ (fun _ => rfl) (fun _ => rfl) two_bytes_spell
  case setProbe => exact spellsBack_of _ (fun _ => rfl) (fun _ => rfl) probe_mode_spells
  case probeLine =>
    exact spellsBack_of _ (fun _ => rfl) (fun _ => rfl) fun h => last_number_spells (by norm_num) h.symm
  case setTime => exact spellsBack_of _ (fun _ => rfl) (fun _ => rfl) time_spells
  case readSummary | claim | readVerdict | clearBoard | readProbe | readTime | resetPart =>
    exact none (fun _ => rfl) fun _ => rfl
  all_goals exact one (fun _ => rfl) fun _ => rfl

/-- The row that a CODE names is one of Table 11.5 and has that CODE. -/
theorem commandRow_some {code : Nat} {row : CommandRow} (h : commandRow? code = some row) :
    row ∈ commandRows ∧ row.code = code :=
  ⟨List.mem_of_find?_eq_some h, by simpa using List.find?_some h⟩

theorem commandRow_none {code : Nat} (h : commandRow? code = none) : ∀ row ∈ commandRows, row.code ≠ code := by
  simpa [commandRow?] using h

/-- Settles O19: the frames row by row one way, and the three verdicts of the decoding the other way. -/
theorem framesDecodeAndEncode : Obligations.FramesDecodeAndEncode := by
  refine ⟨every_frame_round_trips, fun l code ops => ?_⟩
  unfold decodeFrame
  cases hrow : commandRow? code.toNat with
  | none => exact commandRow_none hrow
  | some row =>
    obtain ⟨hmem, hcode⟩ := commandRow_some hrow
    by_cases hlength : ops.length = row.operands
    · obtain ⟨hlink, hframe⟩ := commandRows_spell_back l row hmem ops hlength
      rw [hcode, BitVec.ofNat_toNat, BitVec.setWidth_eq] at hframe
      dsimp only
      rw [if_pos hlength]
      exact ⟨hlink, hframe⟩
    · dsimp only
      rw [if_neg hlength]
      exact ⟨row, hmem, hcode, hlength⟩

end Sys2Proof.Machine
end

/-! ## A frame received character by character reaches its owner -/
section

namespace Sys2Proof.Machine

/-! ### A run that takes characters -/

/-- The characters that a link takes one after the other at one time, each undamaged and none an address character. -/
def receiveAll (m : Manager) (stn : BitVec 6) (now : Clock) (bs : List Byte) (l : Link) : Link :=
  bs.foldl (fun k b => k.receive m stn now (LinkChar.make b false)) l

theorem with_pending_nil {s : State} (h : s.pending = []) : ({ s with pending := [] } : State) = s := by rw [← h]

theorem run_next {k : Nat} {s t : State} (h : core.step s = .next t) : core.run (k + 1) s = core.run k t := by
  simp only [Host.Core.run, h]

/-- The data characters waiting, one step for each, come to the link one after the other. -/
theorem run_dataCharacters (m : Manager) (bs : List Byte) (s : State)
    (h : s.pending = bs.map fun b => .dataCharacter m (LinkChar.make b false)) :
    core.run bs.length s
      = .next (({ s with pending := [] } : State).modLink m (receiveAll m s.straps.stn s.clock bs)) := by
  induction bs generalizing s with
  | nil =>
    rw [with_pending_nil h, modLink_unchanged rfl]
    rfl
  | cons b bs ih =>
    have hstep := (step_of_pending_cons h).trans (exec_character (.inl rfl) _)
    rw [List.length_cons, run_next hstep, ih _ (modLink_pending _ m _), modLink_straps, modLink_clock]
    cases m <;> rfl

/-! ### The frame so far -/

/-- The frame of a LEN and the undamaged characters after it. -/
def frameSoFar (len : Byte) (bs : List Byte) : Frame :=
  { len := len.toNat, count := bs.length, sum := sumBytes (len :: bs), damaged := false, chars := bs }

theorem make_undamaged (b : Byte) : (LinkChar.make b false).damaged = false := by
  simp [LinkChar.damaged, LinkChar.make]

theorem make_isAddress (b : Byte) : (LinkChar.make b false).isAddress = false := rfl

theorem frameSoFar_start (len : Byte) : Frame.start len = frameSoFar len [] := by
  simp [Frame.start, frameSoFar, sumBytes]

theorem frameSoFar_extend (now : Clock) (len b : Byte) (bs : List Byte) :
    (frameSoFar len bs).extend (judgeChar now (LinkChar.make b false)) = frameSoFar len (bs ++ [b]) := by
  have hsum : sumBytes (len :: (bs ++ [b])) = sumBytes (len :: bs) + b := sumBytes_append (len :: bs) b
  have hdata : (LinkChar.make b false).data = b := rfl
  simp [frameSoFar, Frame.extend, judgeChar, make_undamaged, hsum, hdata]

section
variable {m : Manager} {stn : BitVec 6} {l : Link} {now : Clock} {len : Byte}

theorem receiveAll_append (bs : List Byte) (b : Byte) :
    receiveAll m stn now (bs ++ [b]) l = (receiveAll m stn now bs l).receive m stn now (LinkChar.make b false) :=
  List.foldl_concat _ _ _ _

/-- One more character of a frame: it joins, or as the last ends the frame. -/
theorem receive_next (bs : List Byte) (b : Byte) (htx : l.tx = .idle) (hempty : l.buffer = []) :
    let k : Link := { l with lastTaken := now, intake := .receiving (frameSoFar len bs) }
    k.receive m stn now (LinkChar.make b false) = if bs.length + 1 = len.toNat
      then k.frameEnded m (frameSoFar len (bs ++ [b]))
      else { l with lastTaken := now, intake := .receiving (frameSoFar len (bs ++ [b])) } := by
  intro k
  have hcount : (frameSoFar len (bs ++ [b])).count = bs.length + 1 := List.length_append
  rw [receive_receiving (l := k) (f := frameSoFar len bs) (make_isAddress b) htx hempty rfl, frameSoFar_extend, hcount]
  rfl

/-- A LEN and fewer characters than it counts, taken in WAITING, leave the link in their frame. -/
theorem receiveAll_receiving (bs : List Byte) (hlo : 2 ≤ len.toNat) (hhi : len.toNat ≤ 60) (htx : l.tx = .idle)
    (hempty : l.buffer = []) (hin : l.intake = .waiting) (hshort : bs.length < len.toNat) :
    receiveAll m stn now (len :: bs) l = { l with lastTaken := now, intake := .receiving (frameSoFar len bs) } := by
  induction bs using List.reverseRecOn with
  | nil =>
    have hlen : (LinkChar.make len false).damaged = false ∧ 2 ≤ len.toNat ∧ len.toNat ≤ 60 :=
      ⟨make_undamaged len, hlo, hhi⟩
    change l.receive m stn now (LinkChar.make len false) = _
    rw [receive_waiting (make_isAddress len) htx hempty hin, ← frameSoFar_start]
    exact if_pos hlen
  | append_singleton bs b ih =>
    have hmore : bs.length + 1 < len.toNat := by rwa [List.length_append] at hshort
    rw [← List.cons_append, receiveAll_append, ih (Nat.lt_of_succ_lt hmore), receive_next bs b htx hempty,
      if_neg hmore.ne]

/-- With the last character its frame ends. -/
theorem receiveAll_ended (bs : List Byte) (b : Byte) (hlo : 2 ≤ len.toNat) (hhi : len.toNat ≤ 60) (htx : l.tx = .idle)
    (hempty : l.buffer = []) (hin : l.intake = .waiting) (hlast : bs.length + 1 = len.toNat) :
    receiveAll m stn now (len :: bs ++ [b]) l = Link.frameEnded m (frameSoFar len (bs ++ [b]))
      { l with lastTaken := now, intake := .receiving (frameSoFar len bs) } := by
  have hshort : bs.length < len.toNat := by omega
  rw [receiveAll_append, receiveAll_receiving bs hlo hhi htx hempty hin hshort, receive_next bs b htx hempty,
    if_pos hlast]

end

/-- A whole frame's CODE and operands, of a LEN that counts them and the CHECK. -/
theorem frameSoFar_decoded (m : Manager) {len : Byte} (code check : Byte) (ops : List Byte) (hlen : len.toNat = ops.length + 2) :
    let f := frameSoFar len (code :: ops ++ [check])
    decodeFrame m (f.chars.headD 0) ((f.chars.drop 1).take (f.len - 2)) = decodeFrame m code ops := by
  have hops : (ops ++ [check]).take (len.toNat - 2) = ops := by rw [hlen]; exact List.take_left
  exact congrArg (decodeFrame m code) hops

/-- Settles O20: the run takes the frame so far up to its CHECK, whose sum decides the end. -/
theorem frameReachesItsOwner : Obligations.FrameReachesItsOwner := by
  intro m i ⟨code, ops⟩ check s hlink hframe hpending hin hempty htx body chars
  obtain ⟨hdecoded, hshort⟩ := decodeFrame_frameOf hlink hframe
  dsimp only at hdecoded hshort
  have hlen : (BitVec.ofNat 8 (ops.length + 2)).toNat = ops.length + 2 := by rw [BitVec.toNat_ofNat]; omega
  have hrun := run_dataCharacters m chars { s with pending := chars.map fun b => .dataCharacter m (LinkChar.make b false) } rfl
  dsimp only at hrun
  rw [with_pending_nil hpending] at hrun
  refine ⟨_, hrun, modLink_onlyLinks s m _, fun k hk => modLink_other s hk _, ?_⟩
  have hended : receiveAll m s.straps.stn s.clock chars (s.link m) = _ :=
    receiveAll_ended (code :: ops) check (by rw [hlen]; omega) (by rw [hlen]; exact hshort) htx hempty hin (by rw [hlen]; rfl)
  rw [modLink_same, hended]
  by_cases hsum : sumBytes chars = 0
  · rw [if_pos hsum, frameEnded_whole rfl hsum, frameWhole_command ((frameSoFar_decoded m code check ops hlen).trans hdecoded)]
    exact ⟨rfl, hempty, htx, rfl, rfl, rfl⟩
  · rw [if_neg hsum, frameEnded_unbalanced rfl hsum]
    exact ⟨rfl, hempty, htx, rfl, rfl, satInc_toNat _, rfl⟩

end Sys2Proof.Machine
end

/-! ## The reads and the layout of their data (Table 11.8) -/
section

namespace Sys2Proof.Machine

/-! ### Fields one after another -/

/-- The data hold these fields one after another from an offset on. -/
def FieldsFrom (data : List Byte) : Nat → List (List Byte) → Prop
  | _, [] => True
  | offset, bytes :: rest => FieldAt data offset bytes ∧ FieldsFrom data (offset + bytes.length) rest

theorem fieldsFrom_append (front : List Byte) (fields : List (List Byte)) :
    FieldsFrom (front ++ fields.flatten) front.length fields := by
  induction fields generalizing front with
  | nil => trivial
  | cons bytes rest ih =>
    refine ⟨?_, ?_⟩
    · rw [FieldAt, List.drop_left, List.flatten_cons, List.take_left]
    · have h := ih (front ++ bytes)
      rwa [List.append_assoc, List.length_append] at h

/-- Fields put together stand at the sums of the lengths before them. -/
theorem fieldsFrom_flatten (fields : List (List Byte)) : FieldsFrom fields.flatten 0 fields :=
  fieldsFrom_append [] fields

/-- The parts of a field stand one after the other. -/
theorem fieldAt_append {data a b : List Byte} {offset : Nat} (h : FieldAt data offset (a ++ b)) :
    FieldAt data offset a ∧ FieldAt data (offset + a.length) b := by
  rw [FieldAt, List.length_append] at h
  constructor
  · calc (data.drop offset).take a.length
        = ((data.drop offset).take (a.length + b.length)).take a.length := by
          rw [List.take_take, Nat.min_eq_left (Nat.le_add_right _ _)]
      _ = a := by rw [h, List.take_left]
  · calc (data.drop (offset + a.length)).take b.length
        = ((data.drop offset).take (a.length + b.length)).drop a.length := by
          rw [List.drop_take, List.drop_drop, Nat.add_sub_cancel_left]
      _ = b := by rw [h, List.drop_left]

/-! ### The lengths of the coded fields (R172) -/

@[simp] theorem optionalField_length (n : Nat) (v : Option Nat) : (optionalField n v).length = n + 1 := by
  cases v <;> simp [optionalField, leBytes_length]

@[simp] theorem stampBytes_length (x : Stamp) : (stampBytes x).length = 6 := rfl

@[simp] theorem optionalStamp_length (x : Option Stamp) : (optionalStamp x).length = 7 := by
  cases x <;> rfl

theorem leBytes_zero (n : Nat) : leBytes n 0 = List.replicate n 0 := by
  induction n with
  | zero => rfl
  | succ n ih => rw [leBytes, Nat.zero_div, ih]; rfl

/-- The low bytes of a number are those of what a word of their width keeps of it. -/
theorem leBytes_mod (n v : Nat) : leBytes n (v % 256 ^ n) = leBytes n v := by
  induction n generalizing v with
  | zero => rfl
  | succ n ih =>
    have hlow : BitVec.ofNat 8 (v % 256 ^ (n + 1)) = BitVec.ofNat 8 v := by
      refine BitVec.eq_of_toNat_eq ?_
      rw [BitVec.toNat_ofNat, BitVec.toNat_ofNat]
      exact Nat.mod_mod_of_dvd v (Dvd.intro_left (256 ^ n) rfl)
    have hhigh : v % 256 ^ (n + 1) / 256 = v / 256 % 256 ^ n := by
      rw [Nat.pow_succ, Nat.mul_comm, Nat.mod_mul_right_div_self]
    rw [leBytes, leBytes, hlow, hhigh, ih]

theorem leBytes_two (v : Nat) : leBytes 2 (BitVec.ofNat 16 v).toNat = leBytes 2 v := leBytes_mod 2 v
theorem leBytes_four (v : Nat) : leBytes 4 (BitVec.ofNat 32 v).toNat = leBytes 4 v := leBytes_mod 4 v
theorem leBytes_five (v : Nat) : leBytes 5 (BitVec.ofNat 40 v).toNat = leBytes 5 v := leBytes_mod 5 v

/-! ### What the owner of a read returns -/

section
variable {l : Manager} {c : Instr} {s : State}

theorem reports_of_taken {data : List Byte} (hlink : c.link? = some l) (hreset : ∀ m, c ≠ .resetPart m)
    (h : ownerTaken c s = report s data) : Reports l c s data := by
  rw [Reports, exec_eq_answer s hlink hreset, h, report]

theorem answers_of_taken {t : State} {st : Status} (hlink : c.link? = some l) (hreset : ∀ m, c ≠ .resetPart m)
    (h : ownerTaken c s = (t, Reply.plain st)) : Answers l c s t st := by
  rw [Answers, exec_eq_answer s hlink hreset, h, Reply.plain]

end

/-! ### READ_STREAM -/

/-- The sequence state of a stream: synchronised, the next expected sequence, the span bitmap. -/
def seqField (q : SeqState) : List Byte :=
  [flagByte q.isSynchronised] ++ leBytes 4 q.nextExpected.toNat ++ [BitVec.ofNat 8 q.bitmap.toNat]

def streamFields (s : State) (n : StreamIx) : List (List Byte) :=
  let x := s.stream n; let d := x.desc; let c := x.counters
  [ [BitVec.ofNat 8 (n.1 + 1), roleByte d.role], leBytes 5 d.base, [slotSizeByte d.slotSize],
    leBytes 2 d.slotCount ++ leBytes 2 d.marker.toNat,
    [commitModeByte d.commitMode, lapPolarityByte d.lapPolarity, BitVec.ofNat 8 d.reorderSpan],
    leBytes 4 d.silenceLimit ++ leBytes 4 d.assemblyLimit ++ leBytes 4 d.minInterval ++ leBytes 4 d.maxInterval
      ++ [BitVec.ofNat 8 d.missLimit, flagByte d.fence, flagByte x.enabled],
    seqField x.seq, [BitVec.ofNat 8 x.assemblies.length, flagByte x.overrunPending, flagByte x.silent],
    leBytes 4 x.lastAccepted.toNat, c.bytes,
    leBytes 4 x.pulse.pulses.toNat ++ leBytes 2 x.pulse.early.toNat ++ leBytes 2 x.pulse.missed.toNat
      ++ [BitVec.ofNat 8 x.pulse.missCount],
    optionalField 4 (x.pulse.last.map (elapsed s.clock)),
    optionalField 4 (x.pulse.timer.reference.map (elapsed s.clock)) ]

theorem readStreamData_eq (s : State) (n : StreamIx) : readStreamData s n = (streamFields s n).flatten := by
  simp only [readStreamData, streamFields, SetStreamOps.toBytes, StreamDesc.operands, seqField, BitVec.ofNat_toNat,
    leBytes_two, leBytes_four, leBytes_five, b2, b4, List.flatten_cons, List.flatten_nil, List.append_assoc,
    List.cons_append, List.nil_append, List.append_nil]

@[simp] theorem seqField_length (q : SeqState) : (seqField q).length = 6 := rfl

@[simp] theorem streamCounters_length (c : StreamCounters) : c.bytes.length = 24 := rfl

theorem readStreamData_length (s : State) (n : StreamIx) : (readStreamData s n).length = 90 := by
  simp only [readStreamData_eq, streamFields, List.length_flatten, List.map_cons, List.map_nil, List.length_append,
    List.length_cons, List.length_nil, leBytes_length, optionalField_length, seqField_length, streamCounters_length,
    List.sum_cons, List.sum_nil, Nat.reduceAdd]

theorem seqField_reads {data : List Byte} {offset : Nat} {q : SeqState} : FieldAt data offset (seqField q) →
    match q with
    | .unsynchronised => FieldAt data offset [0, 0, 0, 0, 0, 0]
    | .synchronised next places => FieldAt data offset (1 :: leBytes 4 next.toNat ++ [BitVec.ofNat 8 places.toNat]) := by
  cases q with
  | unsynchronised => exact id
  | synchronised next places => exact id

theorem intervalField_reads {data : List Byte} {offset : Nat} {timer : PulseTimer} {now : Clock} :
    FieldAt data offset (optionalField 4 (timer.reference.map (elapsed now))) →
    FieldAt data offset (optionalField 4 (match timer with | .running k => some (now - k).toNat | _ => none)) := by
  cases timer with
  | running k => exact id
  | stopped | held => exact id

theorem stream_reads {l : Manager} {b : Byte} {s : State} {n : StreamIx} (hb : b.toNat = n.1 + 1) :
    Reports l (.readStream l b) s (readStreamData s n) := by
  have htaken : takenReadStream b s = report s (readStreamData s n) := by rw [takenReadStream, streamOf_eq.mpr hb]
  exact reports_of_taken rfl nofun htaken

theorem stream_fields (s : State) (n : StreamIx) : FieldsFrom (readStreamData s n) 0 (streamFields s n) :=
  readStreamData_eq s n ▸ fieldsFrom_flatten _

/-! ### READ_PAIR -/

def pairFields (s : State) (p : PairIx) : List (List Byte) :=
  let q := s.pair p; let d := q.desc
  [ [BitVec.ofNat 8 (p.1 + 1), streamFieldByte d.requestStream, streamFieldByte d.completionStream] ++ leBytes 2 d.quota
      ++ [BitVec.ofNat 8 d.holdLimit, BitVec.ofNat 8 d.gm, BitVec.ofNat 8 d.gd, BitVec.ofNat 8 d.k],
    leBytes 4 d.tfloor ++ leBytes 4 d.tceil ++ [BitVec.ofNat 8 d.armingCount] ++ leBytes 4 d.window
      ++ [BitVec.ofNat 8 d.toleranceShift, BitVec.ofNat 8 d.confirmCount],
    leBytes 4 d.quiesceLimit ++ [flagByte d.expectFetch] ++ leBytes 4 d.echoDeadline
      ++ [flagByte d.fence, healthByte q.health] ++ leBytes 4 q.timeout,
    leBytes 2 q.openList.length ++ leBytes 2 q.lateList.length, q.counters.bytes,
    openHeadBytes s.clock q.openList, lateHeadBytes s.clock q.lateList, windowBytes p s.clock q.hev.window,
    BitVec.ofNat 8 q.hev.history.length :: historyBytes q.hev.history, [windowClassByte q.reportedClass],
    [BitVec.ofNat 8 q.hev.confirm, flagByte q.hev.promotionPending],
    optionalField 4 (q.hev.quiesceStart.map (elapsed s.clock)), q.hev.counters.bytes ]

theorem readPairData_eq (s : State) (p : PairIx) : readPairData s p = (pairFields s p).flatten := by
  simp only [readPairData, pairFields, SetPairOps.toBytes, PairDesc.operands, leBytes_two, leBytes_four, List.flatten_cons,
    List.flatten_nil, List.append_assoc, List.cons_append, List.nil_append, List.append_nil]

theorem pair_fields (s : State) (p : PairIx) : FieldsFrom (readPairData s p) 0 (pairFields s p) :=
  readPairData_eq s p ▸ fieldsFrom_flatten _

@[simp] theorem pairCounters_length (c : PairCounters) : c.bytes.length = 28 := rfl
@[simp] theorem healthCounters_length (c : HealthCounters) : c.bytes.length = 18 := rfl

@[simp] theorem entry_length (now : Clock) (e : Entry) : (e.bytes now).length = 17 := by
  simp [Entry.bytes, b4, leBytes_length]

@[simp] theorem openHead_length (now : Clock) (l : List Entry) : (openHeadBytes now l).length = 18 := by
  cases l <;> simp [openHeadBytes, leBytes_length]

@[simp] theorem lateHead_length (now : Clock) (l : List LateEntry) : (lateHeadBytes now l).length = 22 := by
  cases l <;> simp [lateHeadBytes, leBytes_length]

@[simp] theorem window_length (p : PairIx) (now : Clock) (w : Option EvalWindow) : (windowBytes p now w).length = 10 := by
  cases w <;> rfl

@[simp] theorem history_length (h : List Bool) : (historyBytes h).length = 3 := by
  simp [historyBytes]

theorem readPairData_length (s : State) (p : PairIx) : (readPairData s p).length = 151 := by
  simp only [readPairData_eq, pairFields, List.length_flatten, List.map_cons, List.map_nil, List.length_append,
    List.length_cons, List.length_nil, leBytes_length, optionalField_length, pairCounters_length, healthCounters_length,
    openHead_length, lateHead_length, window_length, history_length, List.sum_cons, List.sum_nil, Nat.reduceAdd]

section
variable {data : List Byte} {offset : Nat} {now : Clock}

/-- A list head that is present: its presence byte, tag, slot, age, counts and time since pickup. -/
def headBytes (now : Clock) (e : Entry) : List Byte :=
  1 :: leBytes 4 e.tag.toNat ++ leBytes 2 e.slot ++ leBytes 4 (elapsed now e.arrival)
    ++ [BitVec.ofNat 8 e.holdCount, BitVec.ofNat 8 e.retryCount] ++ optionalField 4 (e.pickup.map (elapsed now))

theorem headBytes_eq (e : Entry) : 1 :: e.bytes now = headBytes now e := by
  simp only [headBytes, Entry.bytes, Entry.age, b4, leBytes, List.cons_append, List.nil_append]

theorem openHead_reads {l : List Entry} : FieldAt data offset (openHeadBytes now l) →
    FieldAt data offset (match l with | [] => List.replicate 18 0 | e :: _ => headBytes now e) := by
  cases l with
  | nil => rw [openHeadBytes, leBytes_zero]; exact id
  | cons e l => rw [openHeadBytes, headBytes_eq]; exact id

theorem lateHead_reads {l : List LateEntry} : FieldAt data offset (lateHeadBytes now l) →
    FieldAt data offset (match l with
      | [] => List.replicate 22 0
      | e :: _ => headBytes now e.entry ++ leBytes 4 (elapsed now e.lateSince)) := by
  cases l with
  | nil => rw [lateHeadBytes, leBytes_zero]; exact id
  | cons e l => rw [lateHeadBytes, headBytes_eq]; exact id

/-- The time of a HELD window is a free value (notes/assumptions/4). -/
theorem window_reads {p : PairIx} {w : Option EvalWindow} : FieldAt data offset (windowBytes p now w) →
    match w with
    | none => FieldAt data offset (List.replicate 10 0)
    | some w => FieldAt data offset [if w.held then 2 else 1]
        ∧ (w.held = false → FieldAt data (offset + 1) (leBytes 4 (elapsed now w.start)))
        ∧ FieldAt data (offset + 5) (leBytes 2 w.paired.toNat ++ leBytes 2 w.adverse.toNat ++ [flagByte w.taint]) := by
  cases w with
  | none => rw [windowBytes, leBytes_zero]; exact id
  | some w =>
    intro h
    rw [windowBytes, List.append_assoc, List.append_assoc] at h
    obtain ⟨hhead, hrest⟩ := fieldAt_append h
    obtain ⟨hstate, htime⟩ := fieldAt_append hhead
    rw [← List.append_assoc] at hrest
    refine ⟨hstate, fun hheld => ?_, hrest⟩
    rwa [windowTime, hheld] at htime

/-- The obligation writes the codes of the history as numbers, and then as bytes. -/
theorem history_reads {h : List Bool} : FieldAt data offset (BitVec.ofNat 8 h.length :: historyBytes h) →
    FieldAt data offset (BitVec.ofNat 8 h.length
      :: ((h.map fun (bad : Bool) => if bad then 2 else 1) ++ [0, 0, 0]).take 3) := by
  have hcodes : h.map (fun bad => if bad then (2#8) else 1#8) = (h.map fun bad => if bad then 2 else 1).map (BitVec.ofNat 8) := by
    rw [List.map_map]
    refine List.map_congr_left fun bad _ => ?_
    cases bad with
    | false => rfl
    | true => rfl
  simp [historyBytes, hcodes, ← List.map_eq_flatMap]

theorem windowClass_reads {q : Pair} : windowClassByte q.reportedClass
    = if q.health = .disabled then 0 else windowClassByte q.hev.lastClass := by
  rw [Pair.reportedClass]
  split
  · rfl
  · rfl

end

theorem pair_reads {l : Manager} {b : Byte} {s : State} {p : PairIx} (hb : b.toNat = p.1 + 1) :
    Reports l (.readPair l b) s (readPairData s p) := by
  have htaken : takenReadPair b s = report s (readPairData s p) := by rw [takenReadPair, (pairNumbered_eq p).mpr hb]
  exact reports_of_taken rfl nofun htaken

/-! ### READ_ESTIMATE -/

def estimateFields (s : State) (p : PairIx) : List (List Byte) :=
  let q := s.pair p
  [ [BitVec.ofNat 8 (p.1 + 1)], leBytes 4 q.est.m16, leBytes 4 q.est.d16, [BitVec.ofNat 8 q.est.n],
    optionalField 4 q.est.lastSample, [flagByte (arming q.desc q.est)], leBytes 4 (estimateBase q.desc q.est),
    [BitVec.ofNat 8 s.vrd.factor], leBytes 4 q.timeout ]

theorem readEstimateData_eq (s : State) (p : PairIx) : readEstimateData s p = (estimateFields s p).flatten := by
  simp only [readEstimateData, estimateFields, List.flatten_cons, List.flatten_nil, List.append_assoc, List.append_nil]

theorem estimate_fields (s : State) (p : PairIx) : FieldsFrom (readEstimateData s p) 0 (estimateFields s p) :=
  readEstimateData_eq s p ▸ fieldsFrom_flatten _

theorem readEstimateData_length (s : State) (p : PairIx) : (readEstimateData s p).length = 25 := by
  simp only [readEstimateData_eq, estimateFields, List.length_flatten, List.map_cons, List.map_nil,
    List.length_cons, List.length_nil, leBytes_length, optionalField_length, List.sum_cons, List.sum_nil, Nat.reduceAdd]

theorem estimate_reads {l : Manager} {b : Byte} {s : State} {p : PairIx} (hb : b.toNat = p.1 + 1) :
    Reports l (.readEstimate l b) s (readEstimateData s p) := by
  have htaken : takenReadEstimate b s = report s (readEstimateData s p) := by
    rw [takenReadEstimate, (pairNumbered_eq p).mpr hb]
  exact reports_of_taken rfl nofun htaken

/-- A flag of a condition. -/
theorem flagByte_decide (P : Prop) [Decidable P] : flagByte (decide P) = if P then 1 else 0 := by
  by_cases h : P <;> simp [flagByte, h]

/-! ### READ_SOURCE -/

def sourceFields (s : State) (i : SourceIx) : List (List Byte) :=
  let x := s.source i
  [ [BitVec.ofNat 8 (i.1 + 1), BitVec.ofNat 8 x.priority, flagByte x.enable, targetByte x.target, triggerByte x.trigger,
      flagByte x.pending],
    leBytes 2 x.causes.toNat ++ [x.count], optionalStamp x.firstStamp, optionalStamp x.lastStamp,
    [flagByte (standing s i), flagByte (claimable s x.target i), BitVec.ofNat 8 (s.iar.threshold x.target)] ]

theorem readSourceData_eq (s : State) (i : SourceIx) : readSourceData s i = (sourceFields s i).flatten := by
  simp only [readSourceData, sourceFields, b2, List.flatten_cons, List.flatten_nil, List.append_assoc, List.cons_append,
    List.nil_append, List.append_nil]

theorem source_fields (s : State) (i : SourceIx) : FieldsFrom (readSourceData s i) 0 (sourceFields s i) :=
  readSourceData_eq s i ▸ fieldsFrom_flatten _

theorem readSourceData_length (s : State) (i : SourceIx) : (readSourceData s i).length = 26 := by
  simp only [readSourceData_eq, sourceFields, List.length_flatten, List.map_cons, List.map_nil, List.length_append,
    List.length_cons, List.length_nil, leBytes_length, optionalStamp_length, List.sum_cons, List.sum_nil, Nat.reduceAdd]

theorem source_reads {l : Manager} {b : Byte} {s : State} {i : SourceIx} (hb : b.toNat = i.1 + 1) :
    Reports l (.readSource l b) s (readSourceData s i) := by
  have htaken : takenReadSource b s = report s (readSourceData s i) := by rw [takenReadSource, sourceOf_eq.mpr hb]
  exact reports_of_taken rfl nofun htaken

/-! ### READ_VERDICT -/

def verdictFields (s : State) : List (List Byte) :=
  let v := s.vrd; let o := v.settings
  [ leBytes 4 o.channelLossLimit ++ [flagByte o.fenceOnLoss, flagByte o.alarmDrive, BitVec.ofNat 8 o.holdoffFactor]
      ++ leBytes 4 o.releaseSettle ++ leBytes 4 o.holdoffLimit,
    [verdictByte v.verdict, BitVec.ofNat 8 v.factor, flagByte (bflt s), flagByte (drivingCalm s), flagByte v.sensedHigh,
      flagByte (lossStands s), v.triggers.pairs],
    leBytes 2 v.triggers.streams.toNat ++ [flagByte v.triggers.channelLoss], originBytes v.origin,
    holdoffBytes s.clock v.verdict, v.counters.bytes ]

theorem readVerdictData_eq (s : State) : readVerdictData s = (verdictFields s).flatten := by
  simp only [readVerdictData, verdictFields, SetVerdictOps.toBytes, VerdictSettings.operands, leBytes_four, b2,
    List.flatten_cons, List.flatten_nil, List.append_assoc, List.cons_append, List.nil_append, List.append_nil]

theorem verdict_fields (s : State) : FieldsFrom (readVerdictData s) 0 (verdictFields s) :=
  readVerdictData_eq s ▸ fieldsFrom_flatten _

@[simp] theorem triggerOrigin_length (t : Trigger) : t.originBytes.length = 2 := by cases t <;> rfl

@[simp] theorem origin_length (o : Option FaultOrigin) : (originBytes o).length = 13 := by
  cases o <;> simp [originBytes, b4, leBytes_length]

@[simp] theorem holdoff_length (now : Clock) (v : Verdict) : (holdoffBytes now v).length = 9 := by cases v <;> rfl

@[simp] theorem verdictCounters_length (c : VerdictCounters) : c.bytes.length = 12 := rfl

theorem readVerdictData_length (s : State) : (readVerdictData s).length = 59 := by
  simp only [readVerdictData_eq, verdictFields, List.length_flatten, List.map_cons, List.map_nil, List.length_append,
    List.length_cons, List.length_nil, leBytes_length, origin_length, holdoff_length, verdictCounters_length,
    List.sum_cons, List.sum_nil, Nat.reduceAdd]

section
variable {data : List Byte} {offset : Nat} {now : Clock}

theorem origin_reads {o : Option FaultOrigin} : FieldAt data offset (originBytes o) →
    match o with
    | none => FieldAt data offset (List.replicate 13 0)
    | some g => FieldAt data offset (1 :: g.trigger.originBytes)
        ∧ FieldAt data (offset + 3) (leBytes 4 g.clock.toNat ++ leBytes 4 g.stamp.seconds.toNat ++ leBytes 2 g.stamp.tick) := by
  cases o with
  | none => rw [originBytes, leBytes_zero]; exact id
  | some g =>
    intro h
    rw [originBytes, List.append_assoc] at h
    obtain ⟨hhead, hrest⟩ := fieldAt_append h
    rw [List.length_cons, triggerOrigin_length] at hrest
    exact ⟨hhead, hrest⟩

theorem holdoff_reads {v : Verdict} : FieldAt data offset (holdoffBytes now v) →
    FieldAt data offset (match v with
      | .holdoff h => leBytes 4 (elapsed now h.entryTime) ++ leBytes 4 (h.highRun now) ++ [flagByte h.limitPassed]
      | _ => List.replicate 9 0) := by
  cases v with
  | holdoff h => exact id
  | normal | fault => rw [holdoffBytes, leBytes_zero]; exact id

end

theorem verdict_reads (l : Manager) (s : State) : Reports l (.readVerdict l) s (readVerdictData s) :=
  reports_of_taken rfl nofun rfl

/-! ### READ_SUMMARY -/

def summaryFields (s : State) : List (List Byte) :=
  let t := s.tap
  [ [BitVec.ofNat 8 s.straps.stn.toNat, flagByte s.straps.baud, BitVec.ofNat 8 s.straps.amap.toNat],
    leBytes 4 s.clock.toNat,
    leBytes 4 t.writeCount.toNat ++ leBytes 4 t.readCount.toNat ++ leBytes 4 t.outsideCount.toNat
      ++ leBytes 2 t.unobservedCount.toNat ++ leBytes 2 t.discontinuities.toNat,
    [presenceByte t.presence, flagByte t.brstAsserted], leBytes 2 (enablesMask s), [BitVec.ofNat 8 s.commitQueue.length],
    allPairs.map (fun p => healthByte (s.pair p).health), leBytes 2 (entriesInUse s),
    [BitVec.ofNat 8 s.echo.entries.length, BitVec.ofNat 8 (queuedCount s), verdictByte s.vrd.verdict, flagByte (bflt s),
      flagByte s.vrd.sensedHigh, BitVec.ofNat 8 (winnerId s .A), BitVec.ofNat 8 (winnerId s .B)],
    s.linkA.summaryBytes, s.linkB.summaryBytes ]

theorem readSummaryData_eq (s : State) : readSummaryData s = (summaryFields s).flatten := by
  simp only [readSummaryData, summaryFields, BitVec.ofNat_toNat, b2, b4, List.flatten_cons, List.flatten_nil,
    List.append_assoc, List.cons_append, List.nil_append, List.append_nil]

theorem summary_fields (s : State) : FieldsFrom (readSummaryData s) 0 (summaryFields s) :=
  readSummaryData_eq s ▸ fieldsFrom_flatten _

@[simp] theorem summaryBytes_length (k : Link) : k.summaryBytes.length = 8 := rfl

@[simp] theorem allPairs_length : allPairs.length = 8 := rfl

theorem readSummaryData_length (s : State) : (readSummaryData s).length = 61 := by
  simp only [readSummaryData_eq, summaryFields, List.length_flatten, List.map_cons, List.map_nil, List.length_append,
    List.length_cons, List.length_nil, List.length_map, leBytes_length, summaryBytes_length, allPairs_length, List.sum_cons,
    List.sum_nil, Nat.reduceAdd]

theorem summary_reads (l : Manager) (s : State) : Reports l (.readSummary l) s (readSummaryData s) :=
  reports_of_taken rfl nofun rfl

/-- Each stream that is enabled sets its own bit. -/
theorem enablesMask_eq (s : State) : enablesMask s = ∑ n : StreamIx, if (s.stream n).enabled then 2 ^ n.1 else 0 := by
  have hadd (a : Nat) (n : StreamIx) : (if (s.stream n).enabled then a + 2 ^ n.1 else a)
      = a + if (s.stream n).enabled then 2 ^ n.1 else 0 := by
    split
    · rfl
    · rfl
  simp only [enablesMask, hadd, allStreams, List.foldl, Fin.sum_univ_succ, Fin.sum_univ_zero]
  simp [Nat.add_assoc]

/-- The field of a pair among one byte for each, in their order. -/
theorem perPair_reads {data : List Byte} {offset : Nat} {f : PairIx → Byte} (h : FieldAt data offset (allPairs.map f))
    (p : PairIx) : FieldAt data (offset + p.1) [f p] := by
  have hsplit : allPairs = allPairs.take p.1 ++ ([p] ++ allPairs.drop (p.1 + 1)) ∧ (allPairs.take p.1).length = p.1 := by
    revert p; decide
  rw [hsplit.1, List.map_append, List.map_append] at h
  obtain ⟨hp, -⟩ := fieldAt_append (fieldAt_append h).2
  rwa [List.length_map, hsplit.2] at hp

theorem winnerByte (s : State) (m : Manager) : BitVec.ofNat 8 (winnerId s m)
    = match winner s m with | none => 0 | some i => BitVec.ofNat 8 (i.1 + 1) := by
  unfold winnerId
  cases winner s m with
  | none => rfl
  | some i => rfl

theorem queuedCount_eq (s : State) : queuedCount s = s.echo.entries.countP fun e => decide (e.status = .queued) :=
  List.countP_eq_length_filter.symm

/-! ### READ_PROBE -/

def probeFields (s : State) : List (List Byte) :=
  let e := s.echo
  [ flagByte e.fetchCheck :: leBytes 4 e.waitLimit, [BitVec.ofNat 8 e.entries.length, BitVec.ofNat 8 (queuedCount s)],
    [prbByte e.prb, purposeByte (linePurpose s)], currentBytes (currentEntry s), e.single.bytes, e.counters.bytes ]

theorem readProbeData_eq (s : State) : readProbeData s = (probeFields s).flatten := by
  simp only [readProbeData, probeFields, List.flatten_cons, List.flatten_nil, List.append_assoc, List.cons_append,
    List.nil_append, List.append_nil]

theorem probe_fields (s : State) : FieldsFrom (readProbeData s) 0 (probeFields s) :=
  readProbeData_eq s ▸ fieldsFrom_flatten _

@[simp] theorem current_length (e : Option EchoEntry) : (currentBytes e).length = 5 := by cases e <;> rfl

@[simp] theorem single_length (x : SingleProbe) : x.bytes.length = 71 := by
  cases x with
  | idle | busy a => simp [SingleProbe.bytes, leBytes_length]
  | done a outcome => cases outcome <;> simp [SingleProbe.bytes, leBytes_length]

@[simp] theorem echoCounters_length (c : EchoCounters) : c.bytes.length = 18 := rfl

theorem readProbeData_length (s : State) : (readProbeData s).length = 103 := by
  simp only [readProbeData_eq, probeFields, List.length_flatten, List.map_cons, List.map_nil,
    List.length_cons, List.length_nil, leBytes_length, current_length, single_length, echoCounters_length, List.sum_cons,
    List.sum_nil, Nat.reduceAdd]

theorem purposeByte_some (k : Purpose) : purposeByte (some k) = match k with | .currentEntry => 1 | .singleProbe => 2 := by
  cases k with
  | currentEntry => rfl
  | singleProbe => rfl

/-- The states of the PRB and the purpose of its line (Table 11.3). -/
theorem prbField_eq (s : State) : [prbByte s.echo.prb, purposeByte (linePurpose s)] = match s.echo.prb with
    | .idle => [0, 0]
    | .requesting h => [1, match h.purpose with | .currentEntry => 1 | .singleProbe => 2]
    | .reading h => [2, match h.purpose with | .currentEntry => 1 | .singleProbe => 2] := by
  unfold linePurpose
  cases s.echo.prb with
  | idle => rfl
  | requesting h => exact congrArg (fun k => [1, k]) (purposeByte_some h.purpose)
  | reading h => exact congrArg (fun k => [2, k]) (purposeByte_some h.purpose)

theorem currentField_eq (e : Option EchoEntry) : currentBytes e = match e with
    | none => List.replicate 5 0
    | some e => [1, BitVec.ofNat 8 (e.pair.1 + 1), BitVec.ofNat 8 (e.stream.1 + 1)] ++ leBytes 2 e.slot := by
  cases e with
  | none => exact leBytes_zero 5
  | some e => rfl

theorem single_reads {data : List Byte} {offset : Nat} {x : SingleProbe} : FieldAt data offset x.bytes → match x with
    | .idle => FieldAt data offset (List.replicate 71 0)
    | .busy a => FieldAt data offset (1 :: leBytes 5 a.toNat ++ List.replicate 65 0)
    | .done a (.ok d) => FieldAt data offset (2 :: leBytes 5 a.toNat ++ 1 :: d.toList)
    | .done a .starved => FieldAt data offset (2 :: leBytes 5 a.toNat ++ 2 :: List.replicate 64 0)
    | .done a .overtaken => FieldAt data offset (2 :: leBytes 5 a.toNat ++ 3 :: List.replicate 64 0) := by
  cases x with
  | idle | busy a => rw [SingleProbe.bytes, leBytes_zero]; exact id
  | done a outcome =>
    cases outcome with
    | ok d => exact id
    | starved | overtaken => rw [SingleProbe.bytes, leBytes_zero]; exact id

/-! ### The bytes that number nothing -/

section
variable {l : Manager} {b : Byte} {s : State}

theorem readStream_refused (h : b.toNat = 0 ∨ 16 < b.toNat) : Answers l (.readStream l b) s s .range :=
  have htaken : takenReadStream b s = refuse .range s := by rw [takenReadStream, streamOf_none h]
  answers_of_taken rfl nofun htaken

theorem readPair_refused (h : b.toNat = 0 ∨ 8 < b.toNat) : Answers l (.readPair l b) s s .range :=
  have htaken : takenReadPair b s = refuse .range s := by rw [takenReadPair, pairNumbered_none h]
  answers_of_taken rfl nofun htaken

theorem readEstimate_refused (h : b.toNat = 0 ∨ 8 < b.toNat) : Answers l (.readEstimate l b) s s .range :=
  have htaken : takenReadEstimate b s = refuse .range s := by rw [takenReadEstimate, pairNumbered_none h]
  answers_of_taken rfl nofun htaken

theorem readSource_refused (h : b.toNat = 0 ∨ 27 < b.toNat) : Answers l (.readSource l b) s s .range :=
  have htaken : takenReadSource b s = refuse .range s := by rw [takenReadSource, sourceOf_none h]
  answers_of_taken rfl nofun htaken

theorem eq_ofNat_of_toNat {k : Nat} (h : b.toNat = k) : b = BitVec.ofNat 8 k := by
  rw [← h, BitVec.ofNat_toNat, BitVec.setWidth_eq]

end

/-- Settles O60: each read by its fields one after another. -/
theorem readsReportTheState : Obligations.ReadsReportTheState := by
  intro l b s health verdict number since queued
  have hqueued : queuedCount s = queued := queuedCount_eq s
  refine ⟨readStream_refused, fun h => ⟨readPair_refused h, readEstimate_refused h⟩, readSource_refused, fun n hb => ?stream,
    fun p hb => ⟨?pair, ?estimate⟩, fun i hb => ?source, ?verdict, ?summary, ?probe⟩
  case stream =>
    have h := stream_fields s n
    simp only [streamFields, FieldsFrom, List.length_append, List.length_cons, List.length_nil, leBytes_length,
      optionalField_length, seqField_length, streamCounters_length, Nat.reduceAdd, ← eq_ofNat_of_toNat hb] at h
    obtain ⟨h0, h2, h7, h8, h12, h15, h34, h40, h43, h47, h71, h80, h85, -⟩ := h
    exact ⟨_, stream_reads hb, readStreamData_length s n, h0, h2, h7, h8, h12, h15, seqField_reads h34, h40, h43, h47, h71,
      h80, intervalField_reads h85⟩
  case pair =>
    have h := pair_fields s p
    simp only [pairFields, FieldsFrom, List.length_append, List.length_cons, List.length_nil, leBytes_length,
      optionalField_length, pairCounters_length, openHead_length, lateHead_length, window_length, history_length,
      windowClass_reads, Nat.reduceAdd, ← eq_ofNat_of_toNat hb] at h
    obtain ⟨h0, h9, h24, h39, h43, h71, h89, h111, h121, h125, h126, h128, h133, -⟩ := h
    exact ⟨_, pair_reads hb, readPairData_length s p, h0, h9, h24, h39, h43, openHead_reads h71, lateHead_reads h89,
      window_reads h111, history_reads h121, h125, h126, h128, h133⟩
  case estimate =>
    have h := estimate_fields s p
    simp only [estimateFields, FieldsFrom, List.length_cons, List.length_nil, leBytes_length, optionalField_length,
      arming, flagByte_decide, Nat.reduceAdd, ← eq_ofNat_of_toNat hb] at h
    obtain ⟨h0, h1, h5, h9, h10, h15, h16, h20, h21, -⟩ := h
    exact ⟨_, estimate_reads hb, readEstimateData_length s p, h0, h1, h5, h9, h10, h15, h16, h20, h21⟩
  case source =>
    have h := source_fields s i
    simp only [sourceFields, FieldsFrom, List.length_append, List.length_cons, List.length_nil, leBytes_length,
      optionalStamp_length, Nat.reduceAdd, ← eq_ofNat_of_toNat hb] at h
    obtain ⟨h0, h6, h9, h16, h23, -⟩ := h
    exact ⟨_, source_reads hb, readSourceData_length s i, h0, h6, h9, h16, h23⟩
  case verdict =>
    have h := verdict_fields s
    simp only [verdictFields, FieldsFrom, List.length_append, List.length_cons, List.length_nil, leBytes_length,
      origin_length, holdoff_length, lossStands, flagByte_decide (s.tap.presence = .lost), Nat.reduceAdd] at h
    obtain ⟨h0, h15, h22, h25, h38, h47, -⟩ := h
    exact ⟨_, verdict_reads l s, readVerdictData_length s, h0, h15, h22, origin_reads h25, holdoff_reads h38, h47⟩
  case summary =>
    have h := summary_fields s
    simp only [summaryFields, FieldsFrom, List.length_append, List.length_cons, List.length_nil, List.length_map,
      leBytes_length, summaryBytes_length, allPairs_length, enablesMask_eq, entriesInUse_eq, hqueued, winnerByte,
      Nat.reduceAdd] at h
    obtain ⟨h0, h3, h7, h23, h25, h27, h28, h36, h38, h45, h53, -⟩ := h
    exact ⟨_, summary_reads l s, readSummaryData_length s, h0, h3, h7, h23, h25, h27, perPair_reads h28, h36, h38, h45, h53⟩
  case probe =>
    have h := probe_fields s
    simp only [probeFields, FieldsFrom, List.length_cons, List.length_nil, leBytes_length, current_length, single_length,
      hqueued, Nat.reduceAdd] at h
    obtain ⟨h0, h5, h7, h9, h14, h85, -⟩ := h
    rw [prbField_eq] at h7
    rw [currentField_eq] at h9
    exact ⟨(takenReadProbe s).1, _, exec_eq_answer s rfl nofun, rfl, rfl, readProbeData_length s, h0, h5, h7, h9,
      single_reads h14, h85⟩

end Sys2Proof.Machine
end

/-! ## Replies: their length, their characters and their bits -/
section

namespace Sys2Proof.Machine

/-! ### What each owner answers (Table 11.5) -/

/-- A reply of a row whose data are `n` bytes: so many with a status that carries data, and none with another (R164). -/
def FitsRow (n : Nat) (r : Reply) : Prop :=
  if r.status = .ok ∨ r.status = .clamped ∨ r.status = .still then r.data.length = n else r.data = []

theorem plain_fits (st : Status) : FitsRow 0 (Reply.plain st) := by
  unfold FitsRow
  split
  · rfl
  · rfl

theorem data_fits {n : Nat} {data : List Byte} (h : data.length = n) : FitsRow n { status := .ok, data := data } :=
  (if_pos (.inl rfl)).mpr h

theorem range_fits (n : Nat) : FitsRow n (Reply.plain .range) := (if_neg (by decide)).mpr rfl

theorem fits_length {n : Nat} {r : Reply} (h : FitsRow n r) : r.data.length ≤ n := by
  unfold FitsRow at h
  split at h
  · exact h.le
  · rw [h]; exact Nat.zero_le n

theorem claimData_length (s : State) (m : Manager) : (claimData s m).length = 19 := by
  unfold claimData
  split
  · rfl
  · simp [b2, leBytes_length]

section
variable (s : State) (b : Byte)

/-! A command that reads nothing answers by its status alone, in every branch. -/

theorem takenSetStream_fits (o : SetStreamOps) : FitsRow 0 (takenSetStream o s).2 := by
  unfold takenSetStream; repeat' split
  all_goals exact plain_fits _

theorem takenEnableStream_fits : FitsRow 0 (takenEnableStream b s).2 := by
  unfold takenEnableStream; repeat' split
  all_goals exact plain_fits _

theorem takenDisableStream_fits : FitsRow 0 (takenDisableStream b s).2 := by
  unfold takenDisableStream; repeat' split
  all_goals exact plain_fits _

theorem takenSetPair_fits (o : SetPairOps) : FitsRow 0 (takenSetPair o s).2 := by
  unfold takenSetPair; dsimp only; repeat' split
  all_goals exact plain_fits _

theorem takenEnablePair_fits : FitsRow 0 (takenEnablePair b s).2 := by
  unfold takenEnablePair; repeat' split
  all_goals exact plain_fits _

theorem takenRetirePair_fits : FitsRow 0 (takenRetirePair b s).2 := by
  unfold takenRetirePair; repeat' split
  all_goals exact plain_fits _

theorem takenClearPair_fits : FitsRow 0 (takenClearPair b s).2 := by
  unfold takenClearPair; repeat' split
  all_goals exact plain_fits _

theorem takenSetSource_fits (o : SetSourceOps) : FitsRow 0 (takenSetSource o s).2 := by
  unfold takenSetSource; repeat' split
  all_goals exact plain_fits _

theorem takenSetThreshold_fits (target v : Byte) : FitsRow 0 (takenSetThreshold target v s).2 := by
  unfold takenSetThreshold; repeat' split
  all_goals exact plain_fits _

theorem takenAcknowledge_fits (m : Manager) : FitsRow 0 (takenAcknowledge m b s).2 := by
  unfold takenAcknowledge; repeat' split
  all_goals exact plain_fits _

theorem takenSetVerdict_fits (o : SetVerdictOps) : FitsRow 0 (takenSetVerdict o s).2 := by
  unfold takenSetVerdict; repeat' split
  all_goals exact plain_fits _

theorem takenClearBoard_fits : FitsRow 0 (takenClearBoard s).2 := by
  unfold takenClearBoard; repeat' split
  all_goals exact plain_fits _

theorem takenSetProbe_fits (mode : Byte) (limit : BitVec 32) : FitsRow 0 (takenSetProbe mode limit s).2 := by
  unfold takenSetProbe; repeat' split
  all_goals exact plain_fits _

theorem takenProbeLine_fits (address : BitVec 40) : FitsRow 0 (takenProbeLine address s).2 := by
  unfold takenProbeLine; repeat' split
  all_goals exact plain_fits _

theorem takenSetTime_fits (sec : BitVec 32) (tick : BitVec 16) : FitsRow 0 (takenSetTime sec tick s).2 := by
  unfold takenSetTime; repeat' split
  all_goals exact plain_fits _

/-! A read answers RANGE or its data. -/

theorem takenReadStream_fits : FitsRow 90 (takenReadStream b s).2 := by
  unfold takenReadStream; split
  · exact range_fits _
  · exact data_fits (readStreamData_length s _)

theorem takenReadPair_fits : FitsRow 151 (takenReadPair b s).2 := by
  unfold takenReadPair; split
  · exact range_fits _
  · exact data_fits (readPairData_length s _)

theorem takenReadEstimate_fits : FitsRow 25 (takenReadEstimate b s).2 := by
  unfold takenReadEstimate; split
  · exact range_fits _
  · exact data_fits (readEstimateData_length s _)

theorem takenReadSource_fits : FitsRow 26 (takenReadSource b s).2 := by
  unfold takenReadSource; split
  · exact range_fits _
  · exact data_fits (readSourceData_length s _)

end

/-- The row of a command's frame, and the reply of its owner by it. -/
theorem ownerTaken_fits {c : Instr} {f : Byte × List Byte} (hframe : frameOf c = some f) (s : State) :
    ∃ row, commandRow? f.1.toNat = some row ∧ FitsRow row.replyData (ownerTaken c s).2 := by
  cases c with
  | readSummary l => cases hframe; exact ⟨_, rfl, data_fits (readSummaryData_length s)⟩
  | setStream l o => cases hframe; exact ⟨_, rfl, takenSetStream_fits s o⟩
  | readStream l b => cases hframe; exact ⟨_, rfl, takenReadStream_fits s b⟩
  | enableStream l b => cases hframe; exact ⟨_, rfl, takenEnableStream_fits s b⟩
  | disableStream l b => cases hframe; exact ⟨_, rfl, takenDisableStream_fits s b⟩
  | setPair l o => cases hframe; exact ⟨_, rfl, takenSetPair_fits s o⟩
  | readPair l b => cases hframe; exact ⟨_, rfl, takenReadPair_fits s b⟩
  | enablePair l b => cases hframe; exact ⟨_, rfl, takenEnablePair_fits s b⟩
  | retirePair l b => cases hframe; exact ⟨_, rfl, takenRetirePair_fits s b⟩
  | clearPair l b => cases hframe; exact ⟨_, rfl, takenClearPair_fits s b⟩
  | readEstimate l b => cases hframe; exact ⟨_, rfl, takenReadEstimate_fits s b⟩
  | setSource l o => cases hframe; exact ⟨_, rfl, takenSetSource_fits s o⟩
  | readSource l b => cases hframe; exact ⟨_, rfl, takenReadSource_fits s b⟩
  | setThreshold l target v => cases hframe; exact ⟨_, rfl, takenSetThreshold_fits s target v⟩
  | claim l => cases hframe; exact ⟨_, rfl, data_fits (claimData_length s l)⟩
  | acknowledge l b => cases hframe; exact ⟨_, rfl, takenAcknowledge_fits s b l⟩
  | setVerdict l o => cases hframe; exact ⟨_, rfl, takenSetVerdict_fits s o⟩
  | readVerdict l => cases hframe; exact ⟨_, rfl, data_fits (readVerdictData_length s)⟩
  | clearBoard l => cases hframe; exact ⟨_, rfl, takenClearBoard_fits s⟩
  | setProbe l mode limit => cases hframe; exact ⟨_, rfl, takenSetProbe_fits s mode limit⟩
  | probeLine l address => cases hframe; exact ⟨_, rfl, takenProbeLine_fits s address⟩
  | readProbe l => cases hframe; exact ⟨_, rfl, data_fits (readProbeData_length s)⟩
  | setTime l sec tick => cases hframe; exact ⟨_, rfl, takenSetTime_fits s sec tick⟩
  | readTime l => cases hframe; exact ⟨_, rfl, data_fits (readTimeData_length s)⟩
  | resetPart l => cases hframe; exact ⟨_, rfl, plain_fits .ok⟩
  | _ => cases hframe

/-- The longest reply is that of READ_PAIR, so LEN counts any in one byte. -/
theorem replyData_short {code : Nat} {row : CommandRow} (h : commandRow? code = some row) : row.replyData ≤ 151 := by
  have hall : ∀ row ∈ commandRows, row.replyData ≤ 151 := by simp [commandRows]
  exact hall row (commandRow_some h).1

/-! ### The reply recorded -/

theorem beginReply_lastReply (r : Reply) (l : Link) : (l.beginReply r).lastReply = l.lastReply := by
  unfold Link.beginReply; split
  · rfl
  · rfl

/-- With no character held, the reply to a command is the link's last. -/
theorem deliver_lastReply (m : Manager) (stn : BitVec 6) (c : Instr) (r : Reply) {l : Link} (hempty : l.buffer = []) :
    (Link.deliver m stn c r l).lastReply = some r := by
  by_cases hhanded : ∃ ov, l.intake = .handing c ov
  · obtain ⟨ov, hin⟩ := hhanded
    rw [deliver_handed m stn r hin, leaveHanding_eq, hempty, drain_nil, beginReply_lastReply]
    rfl
  · rw [deliver_unhanded m stn r fun ov h => hhanded ⟨ov, h⟩]

theorem resetCarrying_lastReply (c : Instr) (l : Link) : (l.resetCarrying c).lastReply = some (Reply.plain .ok) := by
  unfold Link.resetCarrying; dsimp only; repeat' split
  all_goals rfl

theorem ownerTaken_link (c : Instr) (s : State) (m : Manager) : (ownerTaken c s).1.link m = s.link m := by
  obtain ⟨-, hA, hB, -⟩ := shell_eq_iff.mp (ownerTaken_shell c s)
  cases m with
  | A => exact hA
  | B => exact hB

theorem exec_lastReply {m : Manager} {c : Instr} {s : State} (hlink : c.link? = some m) (hempty : (s.link m).buffer = [])
    (hvoid : ¬ Voided m c s) : ∃ t, exec c s = .next t ∧ (t.link m).lastReply = some (ownerTaken c s).2 := by
  by_cases hreset : ∃ l, c = .resetPart l
  · obtain ⟨l, rfl⟩ := hreset
    cases hlink
    refine ⟨_, exec_resetPart hvoid, ?_⟩
    rw [partReset_carrying, resetCarrying_lastReply]
    rfl
  · refine ⟨_, exec_eq_answer s hlink fun l h => hreset ⟨l, h⟩, ?_⟩
    rw [answer_link (ownerTaken_link c s m) hvoid]
    exact deliver_lastReply _ _ _ _ hempty

/-! ### The characters of a reply (R164, R171) -/

theorem sum_with_check (body : List Byte) : sumBytes (body ++ [-(sumBytes body)]) = 0 := by
  rw [sumBytes_append, BitVec.add_right_neg]
  rfl

/-- Adding up bits by `xor` tells whether the ones are odd in number. -/
theorem foldl_xor (bits : List Bool) (acc : Bool) : bits.foldl xor acc = decide ((acc.toNat + bits.count true) % 2 = 1) := by
  induction bits generalizing acc with
  | nil => cases acc <;> rfl
  | cons b bits ih =>
    have hxor : ∀ x y : Bool, (xor x y).toNat % 2 = (x.toNat + y.toNat) % 2 := by decide
    have hcount : (b :: bits).count true = bits.count true + b.toNat := by cases b <;> simp
    rw [List.foldl_cons, ih, hcount]
    exact decide_eq_decide.mpr (by have := hxor acc b; omega)

theorem oddOnes_eq (b : Byte) : oddOnes b = decide (((List.range 8).map fun i => b.getLsbD i).count true % 2 = 1) := by
  have hfold : oddOnes b = ((List.range 8).map fun i => b.getLsbD i).foldl xor false := rfl
  rw [hfold, foldl_xor, Bool.toNat_false, Nat.zero_add]

/-- Even parity over the data and the flag. -/
theorem make_parity (b : Byte) : let ch := LinkChar.make b false
    (((List.range 8).map fun i => ch.data.getLsbD i) ++ [ch.flag, ch.parity]).count true % 2 = 0 := by
  have hparity : (LinkChar.make b false).parity = decide (((List.range 8).map fun i => b.getLsbD i).count true % 2 = 1) := by
    rw [← oddOnes_eq]; exact Bool.xor_false _
  dsimp only
  rw [List.count_append, hparity]
  change (((List.range 8).map fun i => b.getLsbD i).count true + [false, _].count true) % 2 = 0
  by_cases hodd : ((List.range 8).map fun i => b.getLsbD i).count true % 2 = 1
  · rw [decide_eq_true hodd]; simp; omega
  · rw [decide_eq_false hodd]; simp; omega

theorem reply_chars (r : Reply) : let values := r.chars.map LinkChar.data
    (∃ check, values = BitVec.ofNat 8 (r.data.length + 2) :: r.status.code :: r.data ++ [check])
    ∧ sumBytes values = 0
    ∧ ∀ ch ∈ r.chars, ch.flag = false ∧ ch.stop = true
        ∧ (((List.range 8).map fun i => ch.data.getLsbD i) ++ [ch.flag, ch.parity]).count true % 2 = 0 := by
  dsimp only
  rw [chars_data]
  refine ⟨⟨_, rfl⟩, sum_with_check _, fun ch hch => ?_⟩
  obtain ⟨b, rfl⟩ := chars_made hch
  exact ⟨rfl, rfl, make_parity b⟩

/-! ### The bits of a reply on TXD -/

theorem bits_flatMap_length (cs : List LinkChar) : (cs.flatMap LinkChar.bits).length = 12 * cs.length := by
  simp [List.length_flatMap, Nat.mul_comm]

/-- The twelve bits of a character stand after twelve for each character before it. -/
theorem txd_bits {l : Link} {before after : List LinkChar} {ch : LinkChar} (h : l.tx = .sending (before ++ ch :: after)) :
    (l.txd.drop (12 * before.length)).take 12 = ch.bits := by
  rw [Link.txd, h]
  dsimp only
  rw [List.flatMap_append, List.flatMap_cons, ← bits_flatMap_length before, List.drop_left, ← bits_length ch, List.take_left]

/-- Settles O18: the owner's reply by its row, then the characters and the bits of any reply. -/
theorem repliesHaveTheirLength : Obligations.RepliesHaveTheirLength := by
  refine ⟨fun m c f s hlink hframe hempty hvoid => ?_, reply_chars, fun l cs htx => ?_⟩
  · obtain ⟨t, hexec, hlast⟩ := exec_lastReply hlink hempty hvoid
    obtain ⟨row, hrow, hfits⟩ := ownerTaken_fits hframe s
    have hlength := fits_length hfits
    have hshort := replyData_short hrow
    exact ⟨t, _, row, hexec, hlast, hrow, hfits, by omega⟩
  · refine ⟨decide_eq_true (by rw [htx]; nofun), txd_length htx, fun before after ch hcs => ?_⟩
    rw [hcs] at htx
    exact txd_bits htx

end Sys2Proof.Machine
end
